-- ==== Sys2Proof/Word.lean ====
section
/-! DEFINITION. The block's data widths (00_scope.md R8, R10): every value is an unsigned bit string. -/

namespace Sys2Proof

/-- A byte of a frame, a buffer or a stream (R8). -/
abbrev Byte := BitVec 8

/-- A 16-bit value: the checksum, a calibration parameter (R10). -/
abbrev Half := BitVec 16

/-- A 32-bit value: a register of the host window, a command word (R10, R39). -/
abbrev Word := BitVec 32

/-- A length or a position, 5 bits wide, of value 0..16 (10_state.md R27, R28, R35, R36). -/
abbrev Pos := BitVec 5

/-- The length of a frame the codec can handle, 2..16 (41_framer.md R120, 42_parser.md R140). -/
abbrev FrameLen := { n : Nat // 2 ≤ n ∧ n ≤ 16 }

end Sys2Proof
end

