-- ==== Sys2Proof/Machine/Bytes.lean ====
section
/-! DEFINITION. Byte-order helpers and the checksum of a byte sequence (00_scope.md R8, R11, R16; 20_memory.md R67;
40_checksum.md R100). -/

namespace Sys2Proof

/-- The high byte v[15:8] (R8). -/
def hi (v : Half) : Byte := v.extractLsb' 8 8

/-- The low byte v[7:0] (R8). -/
def lo (v : Half) : Byte := v.extractLsb' 0 8

/-- Two bytes read big-endian (R11). -/
def be16 (b0 b1 : Byte) : Half := b0 ++ b1

/-- Four bytes read big-endian (R11). -/
def be32 (b0 b1 b2 b3 : Byte) : Word := b0 ++ b1 ++ b2 ++ b3

/-- The 16-bit wraparound sum of a byte sequence (R100). -/
def sum16 (bs : List Byte) : Half := BitVec.ofNat 16 (bs.map BitVec.toNat).sum

end Sys2Proof
end

