-- ==== Sys2Proof/Config.lean ====
section
/-! DEFINITION. The constants of every instance (00_scope.md R6), the named parameters of one instance (R7), and the free
values of the model (70_reset_and_hazards.md R231). -/

namespace Sys2Proof

/-- The four command kinds (43_exchange_and_commands.md R170). -/
inductive Kind where
  | readConc | setPressure | spcStatus | setSpc
  deriving DecidableEq, Repr

/-- SPC_MIN (R6). -/
def Config.spcMin : Nat := 400

/-- An SPC_MAX: a 16-bit value at least 400 (93_implementation_defined.md P3). -/
abbrev SpcMax := { v : Half // 400 ≤ v.toNat }

/-- The named parameters of an instance (R7): fixed when the block is built, never changed by a step. -/
structure Params where
  /-- BASE: the platform address of register offset 0. The spec gives no default. -/
  base : Nat
  /-- SPC_MAX: the inclusive upper bound of the SET_SPC target (90_conflicts.md C4; 93_implementation_defined.md P3). -/
  spcMax : SpcMax
  /-- SPC_READY_OFF: the offset of the SPC_STATUS ready flag, 0..9 (90_conflicts.md C3). -/
  spcReadyOff : Fin 10
  /-- LENFIELD(0x03): command bytes 5 and 6 of READ_CONC, byte 5 in the high half. -/
  lfReadConc : Half
  /-- LENFIELD(0x01): command bytes 5 and 6 of SET_PRESSURE. -/
  lfSetPressure : Half
  /-- LENFIELD(0x05): command bytes 5 and 6 of SPC_STATUS. -/
  lfSpcStatus : Half
  /-- LENFIELD(0x04): command bytes 5 and 6 of SET_SPC. -/
  lfSetSpc : Half
  deriving DecidableEq, Repr

/-- LENFIELD(k) (R7). -/
def Params.lenField (P : Params) : Kind → Half
  | .readConc => P.lfReadConc
  | .setPressure => P.lfSetPressure
  | .spcStatus => P.lfSpcStatus
  | .setSpc => P.lfSetSpc

/-- The default instance (R7). BASE has no default in the spec: 0 is a DESIGN CHOICE (log entry 4). -/
def Params.default : Params where
  base := 0
  spcMax := ⟨2000#16, by decide⟩
  spcReadyOff := 8
  lfReadConc := 0x0000#16
  lfSetPressure := 0x0002#16
  lfSpcStatus := 0x0000#16
  lfSetSpc := 0x0004#16

/-- HDR0 (R6). -/
def Config.hdr0 : Byte := 0x42#8
/-- HDR1 (R6). -/
def Config.hdr1 : Byte := 0x4D#8
/-- CLASS (R6). -/
def Config.cls : Byte := 0xA0#8
/-- P_MIN (R6). -/
def Config.pMin : Nat := 700
/-- P_MAX (R6). -/
def Config.pMax : Nat := 1100

/-- The free bytes: draw number `n` is the value a buffer byte takes at a RESET event (R231, log entry 5).
It has no body: no proof can learn a value of it. -/
opaque Config.draw : Nat → Byte

end Sys2Proof
end

