-- ==== Sys2Proof/Syntax.lean ====
section
/-! DEFINITION. The instructions: one constructor per row of the opcode table (30_encoding.md R83, R85, R87). The command words
keep both operand fields, the ignored ones too (R86), so that encoding and decoding are inverse. -/

namespace Sys2Proof

/-- One row of the opcode table each. In a command word `a` is A = v[15:8] and `imm` is IMM16 = v[31:16] (R81, R82). In a
wire frame `lf` is LENFIELD (bytes 5 and 6), `ck` the checksum field (the last two bytes), `p` and `t` the parameter. -/
inductive Instr where
  /-- 40_checksum.md R105. -/
  | nop (a : Byte) (imm : Half)
  /-- 40_checksum.md R101. -/
  | ckclr (a : Byte) (imm : Half)
  /-- 40_checksum.md R102. -/
  | ckadd (a : Byte) (imm : Half)
  /-- 40_checksum.md R103. -/
  | cktx (a : Byte) (imm : Half)
  /-- 40_checksum.md R104. -/
  | ckrx (a : Byte) (imm : Half)
  /-- 41_framer.md R121. -/
  | build (a : Byte) (imm : Half)
  /-- 41_framer.md R122. -/
  | ldcmd (a : Byte) (imm : Half)
  /-- 41_framer.md R123. -/
  | send (a : Byte) (imm : Half)
  /-- 42_parser.md R141. -/
  | recv (a : Byte) (imm : Half)
  /-- 42_parser.md R144. -/
  | verify (a : Byte) (imm : Half)
  /-- 42_parser.md R145. -/
  | vfytx (a : Byte) (imm : Half)
  /-- 42_parser.md R147. -/
  | getu8 (a : Byte) (imm : Half)
  /-- 42_parser.md R148. -/
  | getu16 (a : Byte) (imm : Half)
  /-- 42_parser.md R149. -/
  | getu32 (a : Byte) (imm : Half)
  /-- 43_exchange_and_commands.md R175. -/
  | xchg (a : Byte) (imm : Half)
  /-- 43_exchange_and_commands.md R176. -/
  | parse (a : Byte) (imm : Half)
  /-- 30_encoding.md R85: every OP outside the map. -/
  | illegal (op : Byte) (a : Byte) (imm : Half)
  /-- 43_exchange_and_commands.md R171: a frame on the TX stream. -/
  | frameReadConc (lf : Half) (ck : Half)
  /-- 43_exchange_and_commands.md R172: a frame on the TX stream. -/
  | frameSetPressure (lf : Half) (p : Half) (ck : Half)
  /-- 43_exchange_and_commands.md R173: a frame on the TX stream. -/
  | frameSpcStatus (lf : Half) (ck : Half)
  /-- 43_exchange_and_commands.md R174: a frame on the TX stream. -/
  | frameSetSpc (lf : Half) (t : Half) (ck : Half)
  deriving DecidableEq, Repr

end Sys2Proof
end

