-- ==== Sys2Proof/WellFormed.lean ====
section
/-! DEFINITION. Which instructions are well formed in an instance: a command word always is, but ILLEGAL only with an OP outside
the map (30_encoding.md R83, R85); a wire frame is when its LENFIELD is the instance's, its parameter is in range and its checksum
field is right (43_exchange_and_commands.md R171 to R174). -/

namespace Sys2Proof

/-- The OP values of the opcode map (R83). -/
def opcodes : List Byte :=
  [0x00, 0x01, 0x02, 0x03, 0x04, 0x10, 0x11, 0x12, 0x20, 0x21, 0x22, 0x23, 0x24, 0x25, 0x30, 0x31]

/-- The sum of the two bytes of a 16-bit field. -/
def byteSum (v : Half) : Half := (hi v).setWidth 16 + (lo v).setWidth 16

/-- P_MIN <= p <= P_MAX (R122). -/
def pressureOk (p : Half) : Bool := decide (Config.pMin ≤ p.toNat ∧ p.toNat ≤ Config.pMax)

/-- SPC_MIN <= t <= SPC_MAX (R122). -/
def targetOk (P : Params) (t : Half) : Bool := decide (Config.spcMin ≤ t.toNat ∧ t.toNat ≤ P.spcMax.val.toNat)

/-- Well-formedness in the instance `P`. The checksum fields are the closed forms of R171 to R174. -/
def Instr.wf (P : Params) : Instr → Bool
  | .nop _ _ => true
  | .ckclr _ _ => true
  | .ckadd _ _ => true
  | .cktx _ _ => true
  | .ckrx _ _ => true
  | .build _ _ => true
  | .ldcmd _ _ => true
  | .send _ _ => true
  | .recv _ _ => true
  | .verify _ _ => true
  | .vfytx _ _ => true
  | .getu8 _ _ => true
  | .getu16 _ _ => true
  | .getu32 _ _ => true
  | .xchg _ _ => true
  | .parse _ _ => true
  | .illegal op _ _ => !opcodes.contains op
  | .frameReadConc lf ck => lf == P.lenField .readConc && ck == 0x0132#16 + byteSum lf
  | .frameSetPressure lf p ck =>
    lf == P.lenField .setPressure && pressureOk p && ck == 0x0130#16 + byteSum lf + byteSum p
  | .frameSpcStatus lf ck => lf == P.lenField .spcStatus && ck == 0x0134#16 + byteSum lf
  | .frameSetSpc lf t ck =>
    lf == P.lenField .setSpc && targetOk P t && ck == 0x0133#16 + byteSum lf + byteSum t

end Sys2Proof
end

