-- ==== Sys2Proof/Decode.lean ====
section
/-! DEFINITION. The two encodings of the block: command words written to CMD (30_encoding.md R80 to R86) and command frames on the
TX stream (R87, 43_exchange_and_commands.md R171 to R174). Decoding is total: every command word is an instruction (R83, R85), and
bytes that are no command frame are rejected by name. -/

namespace Sys2Proof

/-- What an instruction is encoded as: a word written to CMD, or the bytes of a wire frame, the first sent first. -/
inductive Code where
  | cmd (v : Word)
  | wire (bs : List Byte)
  deriving DecidableEq, Repr

/-- Why bytes are no command frame (R87). -/
inductive DecodeError where
  /-- Fewer bytes than the frame has. -/
  | truncated
  /-- Bytes left after the frame. -/
  | trailing
  /-- Offsets 0 and 1 are not 0x42 0x4D. -/
  | badHeader
  /-- Offset 2 is not 0xA0. -/
  | badClass
  /-- Offset 3 is not 0x00. -/
  | badSubop
  /-- Offset 4 names no command kind (R170). -/
  | unknownKind
  /-- Offsets 7 and 8 of SET_SPC are not 0x00 (R174). -/
  | reservedNonzero
  deriving DecidableEq, Repr

/-- OP = v[7:0] (R80). -/
def fieldOp (v : Word) : Byte := v.extractLsb' 0 8

/-- A = v[15:8] (R80, R81). -/
def fieldA (v : Word) : Byte := v.extractLsb' 8 8

/-- IMM16 = v[31:16] (R80, R82). -/
def fieldImm (v : Word) : Half := v.extractLsb' 16 16

/-- A command word from its fields (R80). -/
def cmdWord (op a : Byte) (imm : Half) : Word := imm ++ a ++ op

/-- The operation of a command word: OP selects it (R83), any other OP is ILLEGAL (R85). -/
def decodeCmd (v : Word) : Instr :=
  let a := fieldA v
  let imm := fieldImm v
  match (fieldOp v).toNat with
  | 0x00 => .nop a imm
  | 0x01 => .ckclr a imm
  | 0x02 => .ckadd a imm
  | 0x03 => .cktx a imm
  | 0x04 => .ckrx a imm
  | 0x10 => .build a imm
  | 0x11 => .ldcmd a imm
  | 0x12 => .send a imm
  | 0x20 => .recv a imm
  | 0x21 => .verify a imm
  | 0x22 => .vfytx a imm
  | 0x23 => .getu8 a imm
  | 0x24 => .getu16 a imm
  | 0x25 => .getu32 a imm
  | 0x30 => .xchg a imm
  | 0x31 => .parse a imm
  | _ => .illegal (fieldOp v) a imm

/-- The command kind named by the byte of its sub-operation (R170). -/
def Kind.ofByte? (k : Byte) : Option Kind :=
  if k = 0x03#8 then some .readConc
  else if k = 0x01#8 then some .setPressure
  else if k = 0x05#8 then some .spcStatus
  else if k = 0x04#8 then some .setSpc
  else none

/-- The sub-operation low byte of a kind (R170). -/
def Kind.code : Kind → Byte
  | .readConc => 0x03#8
  | .setPressure => 0x01#8
  | .spcStatus => 0x05#8
  | .setSpc => 0x04#8

/-- What follows LENFIELD in a frame of the given kind (R87, R171 to R174): the instruction and the bytes after the frame. -/
def decodeTail (k : Kind) (lf : Half) (bs : List Byte) : Except DecodeError (Instr × List Byte) :=
  match k, bs with
  | .readConc, c0 :: c1 :: rest => .ok (.frameReadConc lf (be16 c0 c1), rest)
  | .setPressure, p0 :: p1 :: c0 :: c1 :: rest => .ok (.frameSetPressure lf (be16 p0 p1) (be16 c0 c1), rest)
  | .spcStatus, c0 :: c1 :: rest => .ok (.frameSpcStatus lf (be16 c0 c1), rest)
  | .setSpc, z0 :: z1 :: t0 :: t1 :: c0 :: c1 :: rest =>
    if z0 = 0x00#8 ∧ z1 = 0x00#8 then .ok (.frameSetSpc lf (be16 t0 t1) (be16 c0 c1), rest)
    else .error .reservedNonzero
  | _, _ => .error .truncated

/-- The command frame at the head of a byte sequence (R87) and the bytes after it. -/
def decodeWire (bs : List Byte) : Except DecodeError (Instr × List Byte) :=
  match bs with
  | h0 :: h1 :: c :: s :: k :: l0 :: l1 :: rest =>
    if h0 ≠ Config.hdr0 ∨ h1 ≠ Config.hdr1 then .error .badHeader
    else if c ≠ Config.cls then .error .badClass
    else if s ≠ 0x00#8 then .error .badSubop
    else
      match Kind.ofByte? k with
      | none => .error .unknownKind
      | some kind => decodeTail kind (be16 l0 l1) rest
  | _ => .error .truncated

/-- The instruction a code stands for: a frame stands for one only when no byte is left over. -/
def decode : Code → Except DecodeError Instr
  | .cmd v => .ok (decodeCmd v)
  | .wire bs =>
    match decodeWire bs with
    | .error e => .error e
    | .ok (i, []) => .ok i
    | .ok (_, _ :: _) => .error .trailing

/-- The header, class, sub-operation and LENFIELD of a command frame: offsets 0 to 6 (R87). -/
def frameHead (k : Kind) (lf : Half) : List Byte :=
  [Config.hdr0, Config.hdr1, Config.cls, 0x00#8, k.code, hi lf, lo lf]

/-- The encoding of an instruction, from the tables of R83 and R171 to R174. -/
def encode : Instr → Code
  | .nop a imm => .cmd (cmdWord 0x00#8 a imm)
  | .ckclr a imm => .cmd (cmdWord 0x01#8 a imm)
  | .ckadd a imm => .cmd (cmdWord 0x02#8 a imm)
  | .cktx a imm => .cmd (cmdWord 0x03#8 a imm)
  | .ckrx a imm => .cmd (cmdWord 0x04#8 a imm)
  | .build a imm => .cmd (cmdWord 0x10#8 a imm)
  | .ldcmd a imm => .cmd (cmdWord 0x11#8 a imm)
  | .send a imm => .cmd (cmdWord 0x12#8 a imm)
  | .recv a imm => .cmd (cmdWord 0x20#8 a imm)
  | .verify a imm => .cmd (cmdWord 0x21#8 a imm)
  | .vfytx a imm => .cmd (cmdWord 0x22#8 a imm)
  | .getu8 a imm => .cmd (cmdWord 0x23#8 a imm)
  | .getu16 a imm => .cmd (cmdWord 0x24#8 a imm)
  | .getu32 a imm => .cmd (cmdWord 0x25#8 a imm)
  | .xchg a imm => .cmd (cmdWord 0x30#8 a imm)
  | .parse a imm => .cmd (cmdWord 0x31#8 a imm)
  | .illegal op a imm => .cmd (cmdWord op a imm)
  | .frameReadConc lf ck => .wire (frameHead .readConc lf ++ [hi ck, lo ck])
  | .frameSetPressure lf p ck => .wire (frameHead .setPressure lf ++ [hi p, lo p, hi ck, lo ck])
  | .frameSpcStatus lf ck => .wire (frameHead .spcStatus lf ++ [hi ck, lo ck])
  | .frameSetSpc lf t ck => .wire (frameHead .setSpc lf ++ [0x00#8, 0x00#8, hi t, lo t, hi ck, lo ck])

/-- `n` bytes of a number, bits 7:0 first. -/
def bytesOf : Nat → Nat → List Byte
  | 0, _ => []
  | n + 1, w => BitVec.ofNat 8 w :: bytesOf n (w / 256)

/-- The longest wire frame, in bytes (R170). -/
def longestFrame : Nat := 13

/-- The instruction the decoder reads from bits numbered as the opcode table numbers them: up to 32 bits are a command word;
more are the bytes of a wire frame, the first in bits 7:0, the missing ones zero. -/
def decodeTableWord (nbits w : Nat) : Option Instr :=
  if nbits ≤ 32 then some (decodeCmd (BitVec.ofNat 32 (w % 2 ^ nbits)))
  else
    match decodeWire (bytesOf longestFrame (w % 2 ^ nbits)) with
    | .ok (i, rest) => if rest.all (· == 0x00#8) then some i else none
    | .error _ => none

end Sys2Proof
end

