-- ==== Sys2Proof/Machine/State.lean ====
section
/-! DEFINITION. The state of the machine as plain data: the block's registers (10_state.md), the streams and the agents' inputs
outside it (R20 to R22), and the parameters of the instance (00_scope.md R7). The state after reset (10_state.md R50). -/

namespace Sys2Proof.Machine

/-- PHASE (10_state.md R25). The value 3 is never reached. -/
inductive Phase where
  | idle | sending | receiving
  deriving DecidableEq, Repr

/-- STATUS.ERR (60_exceptions.md R200). The codes 7 to 15 are never produced. -/
inductive ErrCode where
  | none | validation | timeout | checksum | sensorStatus | illegal | badArg
  deriving DecidableEq, Repr

/-- A buffer of 16 bytes, BUFSZ of 00_scope.md R7. -/
abbrev Buf := Vector Byte 16

/-- The block's own state (10_state.md sections 2, 3, 4 and 7). STATUS.BUSY is not stored (R42). -/
structure Block where
  /-- PHASE (R25). -/
  phase : Phase
  /-- CHAIN (R26). -/
  chain : Bool
  /-- TXPOS (R27). -/
  txpos : Pos
  /-- RXCNT (R28). -/
  rxcnt : Pos
  /-- ACC (R29). -/
  acc : Half
  /-- RESULT (R30). -/
  result : Word
  /-- CONC (R31). -/
  conc : Word
  /-- TXBUF (R32). -/
  txbuf : Buf
  /-- RXBUF (R33). -/
  rxbuf : Buf
  /-- SHADOW (R34). -/
  shadow : Buf
  /-- TXLEN (R35). -/
  txlen : Pos
  /-- RXLEN (R36). -/
  rxlen : Pos
  /-- KIND (R37). -/
  kind : Byte
  /-- KVALID (R37). -/
  kvalid : Bool
  /-- STATUS.DONE (R41). -/
  done : Bool
  /-- STATUS.OK (R41). -/
  ok : Bool
  /-- STATUS.CKOK (R41, R46). -/
  ckok : Bool
  /-- STATUS.FLAG (R41). -/
  flag : Bool
  /-- STATUS.ERR (R41). -/
  err : ErrCode
  /-- STATUS.WARM (R51). -/
  warm : Bool
  /-- STATUS.DROP (R41). -/
  drop : Bool
  deriving DecidableEq, Repr

/-- The width of a host bus access. Only 32-bit accesses are accepted (20_memory.md R61). -/
inductive AccessSize where
  | byte | half | word
  deriving DecidableEq, Repr

/-- What an agent outside the block does in one step (10_state.md R21, R22). -/
inductive Input where
  /-- HOSTWR: the host writes `v` at a bus address (20_memory.md R64). -/
  | hostWr (addr : Nat) (size : AccessSize) (v : Word)
  /-- HOSTRD: the host reads at a bus address (20_memory.md R63). -/
  | hostRd (addr : Nat) (size : AccessSize)
  /-- TXACC: the TX sink is ready (41_framer.md R124). -/
  | txAcc
  /-- A byte enters the RX source FIFO from outside (10_state.md R21). -/
  | rxArrive (b : Byte)
  /-- RXBYTE: the RX source offers its head byte (42_parser.md R142). -/
  | rxByte
  /-- TIMEOUT: the external timer expires (42_parser.md R143). -/
  | timeout
  /-- RESET: `rst` is asserted (70_reset_and_hazards.md R230). -/
  | reset
  deriving DecidableEq, Repr

/-- What lies outside the block: the streams (20_memory.md R60), the agents' schedule and the values host reads returned. -/
structure Env where
  /-- The RX source FIFO, head first (R21). -/
  rxFifo : List Byte
  /-- The bytes the TX sink has accepted, oldest first (00_scope.md R15). -/
  txStream : List Byte
  /-- The values returned by host reads, oldest first (20_memory.md R63). -/
  hostReads : List Word
  /-- The inputs still to come, the next one first. -/
  inputs : List Input
  /-- How many free bytes the RESET events have drawn (70_reset_and_hazards.md R231). -/
  draws : Nat
  deriving DecidableEq, Repr

/-- The machine: an instance of the block and its surroundings. -/
structure State where
  /-- The named parameters (00_scope.md R7); no step changes them. -/
  params : Params
  /-- The block. -/
  blk : Block
  /-- Everything outside it. -/
  env : Env
  deriving DecidableEq, Repr

/-- Why the machine stops. Each is raised only in a state that breaks 10_state.md R38, where the spec gives no meaning; no run
from reset reaches one. Safe: the machine stops where the block's behaviour is not given. -/
inductive Fault where
  /-- TXACC with TXPOS above 15, or RXBYTE with RXCNT above 15: no such buffer byte exists (R27, R28). Safe. -/
  | bufferIndex
  /-- inject or verify of a length outside 2..16 (41_framer.md R120, 42_parser.md R140), by XCHG or RXBYTE. Safe. -/
  | frameLength
  /-- cmd_len or rsp_len of a KIND outside the table (43_exchange_and_commands.md R170), by PARSE, TXACC or RXBYTE. Safe. -/
  | commandKind
  deriving DecidableEq, Repr

/-- What the machine refuses. -/
inductive Refusal where
  /-- Raised by an arm of exec whose instruction has no meaning yet; no arm is so now. Safe. -/
  | notModelled (mnemonic : String)
  /-- Raised by a host access inside the window that is not a 32-bit access at a multiple of 4 (20_memory.md R61). Safe. -/
  | busAccess
  /-- Raised by a host access below BASE or from BASE + 0x100 upward (93_implementation_defined.md F2, log entry 16). Safe. -/
  | outsideBlock
  deriving DecidableEq, Repr

/-- What the next input of a state asks for: an instruction to run in a state, or an event already carried out. -/
inductive Fetched where
  | run (i : Instr) (s : State)
  | event (o : Host.Outcome State Fault Refusal)

/-- Sixteen free bytes, from draw number `n` on (R231). -/
def drawBuf (n : Nat) : Buf :=
  #v[Config.draw n, Config.draw (n + 1), Config.draw (n + 2), Config.draw (n + 3),
    Config.draw (n + 4), Config.draw (n + 5), Config.draw (n + 6), Config.draw (n + 7),
    Config.draw (n + 8), Config.draw (n + 9), Config.draw (n + 10), Config.draw (n + 11),
    Config.draw (n + 12), Config.draw (n + 13), Config.draw (n + 14), Config.draw (n + 15)]

/-- The block after RESET (R50), its buffers holding the draws from number `n` on (R231). -/
def Block.afterReset (n : Nat) : Block where
  phase := .idle
  chain := false
  txpos := 0#5
  rxcnt := 0#5
  acc := 0#16
  result := 0#32
  conc := 0#32
  txbuf := drawBuf n
  rxbuf := drawBuf (n + 16)
  shadow := drawBuf (n + 32)
  txlen := 0#5
  rxlen := 0#5
  kind := 0#8
  kvalid := false
  done := false
  ok := false
  ckok := false
  flag := false
  err := .none
  warm := false
  drop := false

/-- The machine after the power-on reset (R50), the default instance. The streams are outside the block; that they are empty
at power-on is a DESIGN CHOICE (log entry 6). -/
def State.reset : State where
  params := Params.default
  blk := Block.afterReset 0
  env := { rxFifo := [], txStream := [], hostReads := [], inputs := [], draws := 48 }

end Sys2Proof.Machine
end

