-- ==== Sys2Proof/Machine/Flags.lean ====
section
/-! DEFINITION. The status bits: the codes of PHASE and ERR, the words STATUS, FRAME and KINDREG read as (20_memory.md R63), and the
CKOK discipline (10_state.md R46). The block has no other flags (R48). -/

namespace Sys2Proof.Machine

/-- The 2-bit code of PHASE (10_state.md R25). -/
def Phase.code : Phase → BitVec 2
  | .idle => 0#2
  | .sending => 1#2
  | .receiving => 2#2

/-- The 4-bit code of ERR (60_exceptions.md R200). -/
def ErrCode.code : ErrCode → BitVec 4
  | .none => 0#4
  | .validation => 1#4
  | .timeout => 2#4
  | .checksum => 3#4
  | .sensorStatus => 4#4
  | .illegal => 5#4
  | .badArg => 6#4

/-- STATUS.BUSY (10_state.md R42). -/
def Block.busy (b : Block) : Bool := b.phase != .idle

/-- A bit widened to 32 bits. -/
def bit (x : Bool) : Word := (BitVec.ofBool x).setWidth 32

/-- The word STATUS reads as (20_memory.md R63). -/
def Block.statusWord (b : Block) : Word :=
  bit b.drop <<< 16 ||| bit b.warm <<< 12 ||| b.err.code.setWidth 32 <<< 8 ||| b.phase.code.setWidth 32 <<< 5
    ||| bit b.flag <<< 4 ||| bit b.ckok <<< 3 ||| bit b.ok <<< 2 ||| bit b.done <<< 1 ||| bit b.busy

/-- The word FRAME reads as (20_memory.md R63). -/
def Block.frameWord (b : Block) : Word :=
  b.rxcnt.setWidth 32 <<< 24 ||| b.rxlen.setWidth 32 <<< 16 ||| b.txpos.setWidth 32 <<< 8 ||| b.txlen.setWidth 32

/-- The word KINDREG reads as (20_memory.md R63). -/
def Block.kindWord (b : Block) : Word := bit b.kvalid <<< 8 ||| b.kind.setWidth 32

/-- CKOK is cleared when RECV, VERIFY, VFYTX, XCHG or PARSE is issued (10_state.md R46, 30_encoding.md R84). -/
def Block.clearCkok (b : Block) : Block := { b with ckok := false }

end Sys2Proof.Machine
end

