-- ==== Sys2Proof/Machine/Operands.lean ====
section
/-! DEFINITION. The operand forms of a command word (30_encoding.md R81, R82): a count, a frame length, a buffer offset, a command
kind with its table (43_exchange_and_commands.md R170), a calibration parameter; and the register a bus address selects
(10_state.md R39). -/

namespace Sys2Proof.Machine

/-- A frame length operand: 2..16, else none (R81). -/
def frameLen? (n : Nat) : Option FrameLen :=
  if h : 2 ≤ n ∧ n ≤ 16 then some ⟨n, h⟩ else none

/-- cmd_len(k) (43_exchange_and_commands.md R170). -/
def cmdLen : Kind → FrameLen
  | .readConc => ⟨9, by decide⟩
  | .setPressure => ⟨11, by decide⟩
  | .spcStatus => ⟨9, by decide⟩
  | .setSpc => ⟨13, by decide⟩

/-- rsp_len(k) (43_exchange_and_commands.md R170). -/
def rspLen : Kind → FrameLen
  | .readConc => ⟨14, by decide⟩
  | .setPressure => ⟨11, by decide⟩
  | .spcStatus => ⟨10, by decide⟩
  | .setSpc => ⟨10, by decide⟩

/-- The range check of the parameter (41_framer.md R122): only SET_PRESSURE and SET_SPC have one. -/
def paramOk (P : Params) : Kind → Half → Bool
  | .readConc, _ => true
  | .setPressure, p => pressureOk p
  | .spcStatus, _ => true
  | .setSpc, t => targetOk P t

/-- The parameter bytes of a command frame, offsets 7 to L-3 (43_exchange_and_commands.md R171 to R174). -/
def paramBytes : Kind → Half → List Byte
  | .readConc, _ => []
  | .setPressure, p => [hi p, lo p]
  | .spcStatus, _ => []
  | .setSpc, t => [0x00#8, 0x00#8, hi t, lo t]

/-- template(k, IMM16): the contents of TXBUF[0..cmd_len(k)-3] (43_exchange_and_commands.md R171 to R174). -/
def template (P : Params) (k : Kind) (imm : Half) : List Byte :=
  frameHead k (P.lenField k) ++ paramBytes k imm

/-- A register of the host window (10_state.md R39). -/
inductive Reg where
  | cmd | status | acc | result | conc | frame | kindreg
  | txbuf (i : Fin 16)
  | rxbuf (i : Fin 16)
  | unmapped
  deriving DecidableEq, Repr

/-- The register at a word offset of the window (10_state.md R39, 20_memory.md R65). -/
def regAt (off : Nat) : Reg :=
  if off = 0x00 then .cmd
  else if off = 0x04 then .status
  else if off = 0x08 then .acc
  else if off = 0x0C then .result
  else if off = 0x10 then .conc
  else if off = 0x14 then .frame
  else if off = 0x18 then .kindreg
  else if h : 0x40 ≤ off ∧ off < 0x80 then .txbuf ⟨(off - 0x40) / 4, by omega⟩
  else if h : 0x80 ≤ off ∧ off < 0xC0 then .rxbuf ⟨(off - 0x80) / 4, by omega⟩
  else .unmapped

/-- The register a host access reaches (20_memory.md R60, R61, R65): refused when the address is outside the window, or the access
is not a 32-bit access at a multiple of 4. -/
def busReg (P : Params) (addr : Nat) (size : AccessSize) : Except Refusal Reg :=
  if addr < P.base ∨ P.base + 0x100 ≤ addr then .error .outsideBlock
  else if size ≠ .word ∨ (addr - P.base) % 4 ≠ 0 then .error .busAccess
  else .ok (regAt (addr - P.base))

end Sys2Proof.Machine
end

