-- ==== Sys2Proof/Machine/Ops.lean ====
section
/-! DEFINITION. The named operations every meaning and event is made of: buffers, operation completion and `raise` (00_scope.md R14),
the checksum primitives inject and verify (41_framer.md R120, 42_parser.md R140), starting a receive phase (R141), issuing a command
word (10_state.md R40, 30_encoding.md R84). -/

namespace Sys2Proof.Machine

/-- The first `n` bytes of a buffer. -/
def Buf.first (B : Buf) (n : Nat) : List Byte := B.toList.take n

/-- A buffer with a byte sequence written from offset `i` on. -/
def Buf.writeAt (B : Buf) (i : Nat) : List Byte → Buf
  | [] => B
  | b :: bs => Buf.writeAt (B.setIfInBounds i b) (i + 1) bs

/-- begin_op (00_scope.md R14). -/
def Block.beginOp (b : Block) : Block :=
  { b with done := false, ok := false, err := .none, flag := false }

/-- complete (00_scope.md R14). -/
def Block.complete (b : Block) (ok : Bool) (e : ErrCode) : Block :=
  { b with phase := .idle, chain := false, ok := ok, err := e, done := true }

/-- raise (00_scope.md R14, 60_exceptions.md R203): the one way an operation reports an error. Nothing traps. -/
def Block.raise (b : Block) (e : ErrCode) : Block := b.complete false e

/-- sum16 of a buffer (40_checksum.md R100, 00_scope.md R16). -/
def Buf.sum (B : Buf) (n : Nat) : Half := sum16 (B.first n)

/-- inject(L) (41_framer.md R120). -/
def Block.inject (b : Block) (L : FrameLen) : Block :=
  let s := b.txbuf.sum (L.val - 2)
  { b with txbuf := (b.txbuf.setIfInBounds (L.val - 2) (hi s)).setIfInBounds (L.val - 1) (lo s), acc := s }

/-- The comparison of verify(B, L) (42_parser.md R140): both bytes of the sum against the last two bytes of the frame. -/
def Buf.verifies (B : Buf) (L : FrameLen) : Bool :=
  hi (B.sum (L.val - 2)) == B[L.val - 2]'(by have := L.property; omega) &&
    lo (B.sum (L.val - 2)) == B[L.val - 1]'(by have := L.property; omega)

/-- start_rx(L) (42_parser.md R141): the read phase begins. -/
def Block.startRx (b : Block) (L : FrameLen) : Block :=
  { b with rxlen := BitVec.ofNat 5 L.val, rxcnt := 0#5, phase := .receiving }

/-- A write dropped because the block was busy (10_state.md R40, 60_exceptions.md R204). -/
def State.dropWrite (s : State) : State := { s with blk := { s.blk with drop := true } }

/-- Issue of a command word (10_state.md R40, 30_encoding.md R84): dropped while busy, else begin_op and the operation `op`. -/
def issue (s : State) (op : Block → Block) : State :=
  if s.blk.busy then s.dropWrite else { s with blk := op s.blk.beginOp }

/-- Issue of an operation that has no meaning in some states that break 10_state.md R38. -/
def issueChecked (s : State) (op : Block → Except Fault Block) : Host.Outcome State Fault Refusal :=
  if s.blk.busy then .next s.dropWrite
  else
    match op s.blk.beginOp with
    | .ok b => .next { s with blk := b }
    | .error f => .fault f

end Sys2Proof.Machine
end

