-- ==== Sys2Proof/Machine/Exchange.lean ====
section
/-! DEFINITION. The exchange sequencer: XCHG and PARSE (43_exchange_and_commands.md R175, R176) and the per-kind response decode
and failure paths (R177 to R182). -/

namespace Sys2Proof.Machine

/-- The READ_CONC decode (R178). -/
def Block.decodeReadConc (b : Block) : Block :=
  if b.rxbuf[11] = 0x00#8 then
    let v := be32 b.rxbuf[7] b.rxbuf[8] b.rxbuf[9] b.rxbuf[10]
    { b with conc := v, result := v, warm := true }.complete true .none
  else { b with result := b.conc }.complete false .sensorStatus

/-- The SPC_STATUS decode (R180): not ready is an answer, not an error. -/
def Block.decodeSpcStatus (P : Params) (b : Block) : Block :=
  let ready := b.rxbuf[P.spcReadyOff.val]'(by omega) == 0x00#8
  { b with flag := ready }.complete ready .none

/-- The SET_SPC decode (R181). -/
def Block.decodeSetSpc (b : Block) : Block :=
  let good := b.rxbuf[7] != 0x00#8
  { b with flag := good }.complete good (if good then .none else .sensorStatus)

/-- decode_kind() for a known kind (R177, R179). -/
def Block.decodeKind (P : Params) (b : Block) : Kind → Block
  | .readConc => b.decodeReadConc
  | .setPressure => b.complete true .none
  | .spcStatus => b.decodeSpcStatus P
  | .setSpc => b.decodeSetSpc

/-- fail_kind(e) (R182). -/
def Block.failKind (b : Block) (e : ErrCode) : Block :=
  if b.kind = 0x03#8 then { b with result := b.conc }.complete false e else b.complete false e

/-- XCHG (R175): finalize the frame, start the send phase of an exchange. -/
def execXchg (s : State) : Host.Outcome State Fault Refusal :=
  issueChecked s fun b0 =>
    let b := b0.clearCkok
    if b.kvalid then
      match frameLen? b.txlen.toNat with
      | none => .error .frameLength
      | some L => .ok { b.inject L with txpos := 0#5, chain := true, phase := .sending }
    else .ok (b.raise .badArg)

/-- The body of PARSE for a known kind (R176). -/
def Block.parseFrame (P : Params) (b : Block) (k : Kind) : Block :=
  let L := rspLen k
  let good := b.rxbuf.verifies L
  let b1 := { b with acc := b.rxbuf.sum (L.val - 2), ckok := good }
  if good then b1.decodeKind P k else b1.failKind .checksum

/-- PARSE (R176). -/
def execParse (s : State) : Host.Outcome State Fault Refusal :=
  issueChecked s fun b0 =>
    let b := b0.clearCkok
    if b.kvalid then
      match Kind.ofByte? b.kind with
      | none => .error .commandKind
      | some k => .ok (b.parseFrame s.params k)
    else .ok (b.raise .badArg)

end Sys2Proof.Machine
end

