-- ==== Sys2Proof/Machine/Stream.lean ====
section
/-! DEFINITION. The stream events: TXACC (41_framer.md R124), RXBYTE (42_parser.md R142), TIMEOUT (R143), a byte arriving in the RX
FIFO (10_state.md R21), and RESET (70_reset_and_hazards.md R230). An event that is not enabled has no effect (10_state.md R22,
60_exceptions.md R208, log entry 2). -/

namespace Sys2Proof.Machine

/-- tx_valid (10_state.md R20): the block offers a byte. -/
def Block.txValid (b : Block) : Bool := b.phase == .sending

/-- tx_data (10_state.md R20): the byte offered, the one at TXPOS (R27). -/
def Block.txData (b : Block) : Option Byte := if b.txValid then b.txbuf[b.txpos.toNat]? else none

/-- rx_ready (10_state.md R20): the block takes a byte; not asserted outside a receive phase (R22). -/
def Block.rxReady (b : Block) : Bool := b.phase == .receiving

/-- The end of the send phase (R124): SEND completes, XCHG starts its receive phase. -/
def Block.sendDone (b : Block) : Except Fault Block :=
  if b.chain then
    match Kind.ofByte? b.kind with
    | none => .error .commandKind
    | some k => .ok (b.startRx (rspLen k))
  else .ok (b.complete true .none)

/-- The block after the byte at TXPOS was accepted (R124). -/
def Block.afterTx (b : Block) : Except Fault Block :=
  if b.txpos + 1#5 = b.txlen then { b with txpos := b.txpos + 1#5 }.sendDone
  else .ok { b with txpos := b.txpos + 1#5 }

/-- TXACC (R124): the TX sink takes the byte at TXPOS. -/
def txAcc (s : State) : Host.Outcome State Fault Refusal :=
  if s.blk.phase = .sending then
    match s.blk.txbuf[s.blk.txpos.toNat]? with
    | none => .fault .bufferIndex
    | some x =>
      match s.blk.afterTx with
      | .error f => .fault f
      | .ok b => .next { s with blk := b, env := { s.env with txStream := s.env.txStream ++ [x] } }
  else .next s

/-- rx_complete() (R142): verify SHADOW, copy it to RXBUF if it matched, and complete or decode by kind. -/
def Block.rxComplete (P : Params) (b : Block) : Except Fault Block :=
  match frameLen? b.rxlen.toNat with
  | none => .error .frameLength
  | some L =>
    let good := b.shadow.verifies L
    let b1 := { b with acc := b.shadow.sum (L.val - 2), ckok := good }
    if good then
      let b2 := { b1 with rxbuf := b1.rxbuf.writeAt 0 (b1.shadow.first L.val) }
      if b2.chain then
        match Kind.ofByte? b2.kind with
        | none => .error .commandKind
        | some k => .ok (b2.decodeKind P k)
      else .ok (b2.complete true .none)
    else if b1.chain then .ok (b1.failKind .checksum)
    else .ok (b1.complete false .checksum)

/-- The block after the byte `x` was taken from the RX source (R142). -/
def Block.afterRx (P : Params) (b : Block) (x : Byte) : Except Fault Block :=
  if b.rxcnt.toNat < 16 then
    let b1 := { b with shadow := b.shadow.setIfInBounds b.rxcnt.toNat x, rxcnt := b.rxcnt + 1#5 }
    if b1.rxcnt = b1.rxlen then b1.rxComplete P else .ok b1
  else .error .bufferIndex

/-- RXBYTE (R142): the head byte of the RX FIFO is taken into SHADOW. -/
def rxByte (s : State) : Host.Outcome State Fault Refusal :=
  match s.blk.phase, s.env.rxFifo with
  | .receiving, x :: rest =>
    match s.blk.afterRx s.params x with
    | .error f => .fault f
    | .ok b => .next { s with blk := b, env := { s.env with rxFifo := rest } }
  | _, _ => .next s

/-- TIMEOUT (R143). -/
def timeout (s : State) : State :=
  if s.blk.phase = .receiving then
    if s.blk.chain then { s with blk := s.blk.failKind .timeout }
    else { s with blk := s.blk.complete false .timeout }
  else s

/-- A byte enters the RX source FIFO; the block takes no part (10_state.md R21). -/
def rxArrive (x : Byte) (s : State) : State := { s with env := { s.env with rxFifo := s.env.rxFifo ++ [x] } }

/-- RESET (70_reset_and_hazards.md R230, R231, R233): the block's reset values, fresh draws; the outside stays. -/
def resetBlock (s : State) : State :=
  { s with blk := Block.afterReset s.env.draws, env := { s.env with draws := s.env.draws + 48 } }

end Sys2Proof.Machine
end

