-- ==== Sys2Proof/Machine/Wire.lean ====
section
/-! DEFINITION. The wire frames (30_encoding.md R87, 43_exchange_and_commands.md R171 to R174). A frame is sent byte by byte, one
TXACC event each (20_memory.md R68): while it is the frame in flight, each step of it is a TXACC event (41_framer.md R124, log
entry 7). -/

namespace Sys2Proof.Machine

/-- The bytes of a wire frame (R87). -/
def wireBytes (i : Instr) : List Byte :=
  match encode i with
  | .wire bs => bs
  | .cmd _ => []

/-- The frame in flight: during a send phase, TXBUF[0..TXLEN-1]. -/
def State.inFlight (s : State) : List Byte := s.blk.txbuf.first s.blk.txlen.toNat

/-- One TXACC event of the frame `bs`, if it is the frame in flight; a frame that is not in flight is not on the stream. -/
def sendBeat (bs : List Byte) (s : State) : Host.Outcome State Fault Refusal :=
  if s.blk.phase = .sending ∧ s.inFlight = bs then txAcc s else .next s

/-- FRAME_READ_CONC (R171). -/
def execFrameReadConc (lf ck : Half) (s : State) : Host.Outcome State Fault Refusal :=
  sendBeat (wireBytes (.frameReadConc lf ck)) s

/-- FRAME_SET_PRESSURE (R172). -/
def execFrameSetPressure (lf p ck : Half) (s : State) : Host.Outcome State Fault Refusal :=
  sendBeat (wireBytes (.frameSetPressure lf p ck)) s

/-- FRAME_SPC_STATUS (R173). -/
def execFrameSpcStatus (lf ck : Half) (s : State) : Host.Outcome State Fault Refusal :=
  sendBeat (wireBytes (.frameSpcStatus lf ck)) s

/-- FRAME_SET_SPC (R174). -/
def execFrameSetSpc (lf t ck : Half) (s : State) : Host.Outcome State Fault Refusal :=
  sendBeat (wireBytes (.frameSetSpc lf t ck)) s

end Sys2Proof.Machine
end

