-- ==== Sys2Proof/Machine/Bus.lean ====
section
/-! DEFINITION. The host register bus (20_memory.md R60 to R66) and the fetch: what the next input of a state asks for
(10_state.md R22, R23). -/

namespace Sys2Proof.Machine

/-- The value a host read of a register returns (R63). A read changes no state (R66). -/
def readReg (b : Block) : Reg → Word
  | .cmd => 0#32
  | .status => b.statusWord
  | .acc => b.acc.setWidth 32
  | .result => b.result
  | .conc => b.conc
  | .frame => b.frameWord
  | .kindreg => b.kindWord
  | .txbuf i => b.txbuf[i].setWidth 32
  | .rxbuf i => b.rxbuf[i].setWidth 32
  | .unmapped => 0#32

/-- A write that is dropped while the block is busy (R64). -/
def writeIdle (b : Block) (b' : Block) : Block := if b.busy then { b with drop := true } else b'

/-- A host write of a register other than CMD (R64). A write of CMD issues an operation and is not made here. -/
def writeReg (b : Block) (v : Word) : Reg → Block
  | .cmd => b
  | .status => if v.getLsbD 16 then { b with drop := false } else b
  | .acc => writeIdle b { b with acc := v.setWidth 16 }
  | .result => b
  | .conc => b
  | .frame => b
  | .kindreg => b
  | .txbuf i => writeIdle b { b with txbuf := b.txbuf.set i (v.setWidth 8) }
  | .rxbuf i => writeIdle b { b with rxbuf := b.rxbuf.set i (v.setWidth 8) }
  | .unmapped => b

/-- HOSTRD (R63): the value goes to the host. -/
def hostRead (r : Reg) (s : State) : State :=
  { s with env := { s.env with hostReads := s.env.hostReads ++ [readReg s.blk r] } }

/-- HOSTWR (R64): a command word to CMD is an instruction to run (30_encoding.md R84); any other write is done at once. -/
def hostWrite (r : Reg) (v : Word) (s : State) : Fetched :=
  match r with
  | .cmd => .run (decodeCmd v) s
  | r => .event (.next { s with blk := writeReg s.blk v r })

/-- TXACC: during a send phase a command frame in flight is an instruction to run; any other frame is sent the same way. -/
def fetchTx (s : State) : Fetched :=
  if s.blk.phase = .sending then
    match decode (.wire s.inFlight) with
    | .ok i => .run i s
    | .error _ => .event (txAcc s)
  else .event (txAcc s)

/-- What the input `x` asks for in state `s` (10_state.md R22). -/
def fetchInput (x : Input) (s : State) : Fetched :=
  match x with
  | .hostWr addr size v =>
    match busReg s.params addr size with
    | .error r => .event (.refused r)
    | .ok r => hostWrite r v s
  | .hostRd addr size =>
    match busReg s.params addr size with
    | .error r => .event (.refused r)
    | .ok r => .event (.next (hostRead r s))
  | .txAcc => fetchTx s
  | .rxArrive b => .event (.next (rxArrive b s))
  | .rxByte => .event (rxByte s)
  | .timeout => .event (.next (timeout s))
  | .reset => .event (.next (resetBlock s))

/-- The state with its next input taken away. -/
def State.pop (s : State) : State := { s with env := { s.env with inputs := s.env.inputs.tail } }

/-- The state with an input put before all others. -/
def State.push (s : State) (x : Input) : State := { s with env := { s.env with inputs := x :: s.env.inputs } }

/-- The fetch: with no input the block waits (log entry 3). -/
def fetch (s : State) : Fetched :=
  match s.env.inputs with
  | [] => .event (.next s)
  | x :: _ => fetchInput x s.pop

/-- A command word where the next step fetches it: the host writes it to CMD. -/
def State.placeCmd (s : State) (v : Word) : State := s.push (.hostWr s.params.base .word v)

/-- A wire frame where the next step fetches it: TXBUF holds it, the send phase is at its first byte, the TX sink is ready. -/
def State.placeFrame (s : State) (bs : List Byte) : State :=
  { s with blk := { s.blk with
      txbuf := s.blk.txbuf.writeAt 0 bs, txlen := BitVec.ofNat 5 bs.length, txpos := 0#5, chain := false,
      phase := .sending } }.push .txAcc

/-- The bytes of the command frame at the head of a byte sequence; the sequence itself where there is none. -/
def frameOf (bs : List Byte) : List Byte :=
  match decodeWire bs with
  | .ok (i, _) => wireBytes i
  | .error _ => bs

end Sys2Proof.Machine
end

