-- ==== Sys2Proof/Machine/Checksum.lean ====
section
/-! DEFINITION. The checksum generator's operations (40_checksum.md R101 to R105) and the illegal fallback (30_encoding.md R85). -/

namespace Sys2Proof.Machine

/-- NOP (R105). -/
def execNop (s : State) : Host.Outcome State Fault Refusal :=
  .next (issue s fun b => b.complete true .none)

/-- CKCLR (R101). -/
def execCkclr (s : State) : Host.Outcome State Fault Refusal :=
  .next (issue s fun b => { b with acc := 0x0000#16 }.complete true .none)

/-- CKADD (R102). -/
def execCkadd (a : Byte) (s : State) : Host.Outcome State Fault Refusal :=
  .next (issue s fun b => { b with acc := b.acc + a.setWidth 16 }.complete true .none)

/-- CKTX (R103). -/
def execCktx (a : Byte) (s : State) : Host.Outcome State Fault Refusal :=
  .next (issue s fun b =>
    if a.toNat > 16 then b.raise .badArg
    else { b with acc := b.txbuf.sum a.toNat }.complete true .none)

/-- CKRX (R104). -/
def execCkrx (a : Byte) (s : State) : Host.Outcome State Fault Refusal :=
  .next (issue s fun b =>
    if a.toNat > 16 then b.raise .badArg
    else { b with acc := b.rxbuf.sum a.toNat }.complete true .none)

/-- An OP outside the map (30_encoding.md R85). -/
def execIllegal (s : State) : Host.Outcome State Fault Refusal :=
  .next (issue s fun b => b.raise .illegal)

end Sys2Proof.Machine
end

