-- ==== Sys2Proof/Machine/Framer.lean ====
section
/-! DEFINITION. The command framer's operations (41_framer.md R121 to R123). -/

namespace Sys2Proof.Machine

/-- BUILD of a frame of length `L` (R121). -/
def Block.buildFrame (b : Block) (L : FrameLen) : Block :=
  { b.inject L with txlen := BitVec.ofNat 5 L.val, txpos := 0#5, kvalid := false }

/-- BUILD (R121). -/
def execBuild (a : Byte) (s : State) : Host.Outcome State Fault Refusal :=
  .next (issue s fun b =>
    match frameLen? a.toNat with
    | none => b.raise .badArg
    | some L => (b.buildFrame L).complete true .none)

/-- LDCMD of a known kind with an accepted parameter (R122). -/
def Block.loadFrame (P : Params) (b : Block) (k : Kind) (imm : Half) : Block :=
  let L := cmdLen k
  { { b with txbuf := b.txbuf.writeAt 0 (template P k imm) }.inject L with
    txlen := BitVec.ofNat 5 L.val, txpos := 0#5, kind := k.code, kvalid := true }

/-- LDCMD (R122): the kind is checked first, then the parameter (60_exceptions.md R205). -/
def execLdcmd (a : Byte) (imm : Half) (s : State) : Host.Outcome State Fault Refusal :=
  .next (issue s fun b =>
    match Kind.ofByte? a with
    | none => { b with kvalid := false }.raise .illegal
    | some k =>
      if paramOk s.params k imm then (b.loadFrame s.params k imm).complete true .none
      else { b with kvalid := false }.raise .validation)

/-- SEND (R123): the send phase starts; it completes at the last TXACC (R124). -/
def execSend (s : State) : Host.Outcome State Fault Refusal :=
  .next (issue s fun b =>
    if b.txlen = 0#5 then b.raise .badArg
    else { b with txpos := 0#5, chain := false, phase := .sending })

end Sys2Proof.Machine
end

