-- ==== Sys2Proof/Machine/Parser.lean ====
section
/-! DEFINITION. The response parser's operations (42_parser.md R141, R144, R145, R147 to R149). -/

namespace Sys2Proof.Machine

/-- RECV (R141): the receive phase starts; it completes at the last RXBYTE (R142) or at a TIMEOUT (R143). -/
def execRecv (a : Byte) (s : State) : Host.Outcome State Fault Refusal :=
  .next (issue s fun b =>
    match frameLen? a.toNat with
    | none => b.clearCkok.raise .badArg
    | some L => { b.clearCkok with chain := false }.startRx L)

/-- The end of VERIFY and VFYTX: the sum into ACC, the comparison into CKOK, OK and ERR (R144, R145). -/
def Block.verified (b : Block) (B : Buf) (L : FrameLen) : Block :=
  let good := B.verifies L
  { b with acc := B.sum (L.val - 2), ckok := good }.complete good (if good then .none else .checksum)

/-- VERIFY (R144). -/
def execVerify (a : Byte) (s : State) : Host.Outcome State Fault Refusal :=
  .next (issue s fun b =>
    match frameLen? a.toNat with
    | none => b.clearCkok.raise .badArg
    | some L => b.clearCkok.verified b.rxbuf L)

/-- VFYTX (R145). -/
def execVfytx (a : Byte) (s : State) : Host.Outcome State Fault Refusal :=
  .next (issue s fun b =>
    match frameLen? a.toNat with
    | none => b.clearCkok.raise .badArg
    | some L => b.clearCkok.verified b.txbuf L)

/-- GETU8 (R147). -/
def execGetu8 (a : Byte) (s : State) : Host.Outcome State Fault Refusal :=
  .next (issue s fun b =>
    if h : a.toNat ≤ 15 then { b with result := (b.rxbuf[a.toNat]'(by omega)).setWidth 32 }.complete true .none
    else b.raise .badArg)

/-- GETU16 (R148). -/
def execGetu16 (a : Byte) (s : State) : Host.Outcome State Fault Refusal :=
  .next (issue s fun b =>
    if h : a.toNat ≤ 14 then
      { b with result := (be16 (b.rxbuf[a.toNat]'(by omega)) (b.rxbuf[a.toNat + 1]'(by omega))).setWidth 32 }.complete
        true .none
    else b.raise .badArg)

/-- GETU32 (R149). -/
def execGetu32 (a : Byte) (s : State) : Host.Outcome State Fault Refusal :=
  .next (issue s fun b =>
    if h : a.toNat ≤ 12 then
      { b with result := be32 (b.rxbuf[a.toNat]'(by omega)) (b.rxbuf[a.toNat + 1]'(by omega))
                (b.rxbuf[a.toNat + 2]'(by omega)) (b.rxbuf[a.toNat + 3]'(by omega)) }.complete true .none
    else b.raise .badArg)

end Sys2Proof.Machine
end

