-- ==== Sys2Proof/Machine/Dispatch.lean ====
section
/-! DEFINITION. The meaning of each instruction: one arm per row of the opcode table (30_encoding.md R83, R85, R87). -/

namespace Sys2Proof.Machine

def exec (i : Instr) (s : State) : Host.Outcome State Fault Refusal :=
  match i with
  | .nop _ _ => Sys2Proof.Machine.execNop s
  | .ckclr _ _ => Sys2Proof.Machine.execCkclr s
  | .ckadd a _ => Sys2Proof.Machine.execCkadd a s
  | .cktx a _ => Sys2Proof.Machine.execCktx a s
  | .ckrx a _ => Sys2Proof.Machine.execCkrx a s
  | .build a _ => Sys2Proof.Machine.execBuild a s
  | .ldcmd a imm => Sys2Proof.Machine.execLdcmd a imm s
  | .send _ _ => Sys2Proof.Machine.execSend s
  | .recv a _ => Sys2Proof.Machine.execRecv a s
  | .verify a _ => Sys2Proof.Machine.execVerify a s
  | .vfytx a _ => Sys2Proof.Machine.execVfytx a s
  | .getu8 a _ => Sys2Proof.Machine.execGetu8 a s
  | .getu16 a _ => Sys2Proof.Machine.execGetu16 a s
  | .getu32 a _ => Sys2Proof.Machine.execGetu32 a s
  | .xchg _ _ => Sys2Proof.Machine.execXchg s
  | .parse _ _ => Sys2Proof.Machine.execParse s
  | .illegal _ _ _ => Sys2Proof.Machine.execIllegal s
  | .frameReadConc lf ck => Sys2Proof.Machine.execFrameReadConc lf ck s
  | .frameSetPressure lf p ck => Sys2Proof.Machine.execFrameSetPressure lf p ck s
  | .frameSpcStatus lf ck => Sys2Proof.Machine.execFrameSpcStatus lf ck s
  | .frameSetSpc lf t ck => Sys2Proof.Machine.execFrameSetSpc lf t ck s

end Sys2Proof.Machine
end

