-- ==== Sys2Proof/Machine/Step.lean ====
section
/-! DEFINITION. One step: one event (10_state.md R23). -/

namespace Sys2Proof.Machine

/-- One step of the machine: the next input's event; a command word, and a command frame in flight, run through `exec`. -/
def step (s : State) : Host.Outcome State Fault Refusal :=
  match fetch s with
  | .run i s' => exec i s'
  | .event o => o

/-- The state whose very next step runs the instruction given as the opcode table numbers its bits: a command word is written
to CMD by the host, a wire frame stands in TXBUF in a send phase (log entry 10). -/
def State.withFetchWord (s : State) (nbits w : Nat) : State :=
  if nbits ≤ 32 then s.placeCmd (BitVec.ofNat 32 (w % 2 ^ nbits))
  else s.placeFrame (frameOf (bytesOf longestFrame (w % 2 ^ nbits)))

end Sys2Proof.Machine
end

