-- ==== Sys2Proof/Safety.lean ====
section
/-! DEFINITION. What a safe state is: the invariants of 10_state.md R38 and the facts the rules say hold of every run (R42, R51),
with what these need to be kept by every event; a run of several steps; the words of the spec that claims are stated in. -/

namespace Sys2Proof.Machine

/-- The invariants 10_state.md R38 lists. -/
abbrev Block.InvR38 (b : Block) : Prop :=
  b.txpos.toNat ≤ b.txlen.toNat ∧ b.txlen.toNat ≤ 16 ∧ b.rxcnt.toNat ≤ b.rxlen.toNat ∧ b.rxlen.toNat ≤ 16 ∧
  (b.phase = .idle → b.chain = false) ∧
  (b.phase = .receiving → 2 ≤ b.rxlen.toNat) ∧
  (b.kvalid = true → (Kind.ofByte? b.kind).map (fun k => (cmdLen k).val) = some b.txlen.toNat) ∧
  (b.chain = true → b.kvalid = true)

/-- During a phase there is a byte left to send or to take, and an exchange waits for the response of its own command (DEDUCED:
R123, R124, R141, R142 and R175 start a phase so and end it in time). -/
abbrev Block.InvProgress (b : Block) : Prop :=
  (b.phase = .sending → b.txpos.toNat < b.txlen.toNat) ∧
  (b.phase = .receiving → b.rxcnt.toNat < b.rxlen.toNat) ∧
  (b.phase = .receiving → b.chain = true →
    (Kind.ofByte? b.kind).map (fun k => (rspLen k).val) = some b.rxlen.toNat)

/-- While an operation is in flight its outcome is as begin_op left it: DONE and BUSY are never both 1 (R42), OK, ERR and FLAG are
clear, and CKOK is clear in an operation that will verify (R46). -/
abbrev Block.InvOutcome (b : Block) : Prop :=
  (b.phase ≠ .idle → b.done = false ∧ b.ok = false ∧ b.err = .none ∧ b.flag = false) ∧
  (b.phase = .receiving → b.ckok = false) ∧
  (b.chain = true → b.ckok = false)

/-- A block that a run from reset can reach: R38, and what every event needs to keep it. -/
abbrev Block.Inv (b : Block) : Prop := b.InvR38 ∧ b.InvProgress ∧ b.InvOutcome

/-- `k` steps, stopping at the first fault or refusal. -/
def run : Nat → State → Host.Outcome State Fault Refusal
  | 0, s => .next s
  | k + 1, s =>
    match step s with
    | .next s' => run k s'
    | .fault f => .fault f
    | .refused r => .refused r

/-- The block at the end of an operation, as 00_scope.md R14 leaves it, FLAG as begin_op left it. -/
def Block.finished (b : Block) (ok : Bool) (e : ErrCode) : Block :=
  { b with phase := .idle, chain := false, done := true, ok := ok, err := e, flag := false }

/-- The block after begin_op (00_scope.md R14). -/
def Block.started (b : Block) : Block := { b with done := false, ok := false, err := .none, flag := false }

/-- The state with the block `b`. -/
def State.withBlk (s : State) (b : Block) : State := { s with blk := b }

/-- The sum of the first `n` bytes of a buffer, as a number (40_checksum.md R100 before the wrap). -/
def Buf.total (B : Buf) (n : Nat) : Nat := ((B.toList.take n).map BitVec.toNat).sum

/-- The last two bytes of a frame of length L hold its checksum, high byte first (42_parser.md R140). -/
abbrev Buf.goodFrame (B : Buf) (L : FrameLen) : Prop :=
  (B[L.val - 2]'(by have := L.property; omega)).toNat * 256 + (B[L.val - 1]'(by have := L.property; omega)).toNat
    = B.total (L.val - 2) % 65536

/-- Inputs that neither accept a byte of the frame nor reset the block. -/
abbrev Input.isStall (x : Input) : Prop := x ≠ .txAcc ∧ x ≠ .reset

end Sys2Proof.Machine
end

