-- ==== Sys2Proof/Certificates/Slice0/Obligations.lean ====
section
/-! DEFINITION. The statements about the model, each from the rules its docstring names. A statement of an instruction gives the whole
next state, so it also says what the instruction leaves unchanged; and it says which command words are the instruction's (30_encoding.md
R80, R83). -/

open Sys2Proof Sys2Proof.Machine

/-! ## The checksum generator -/

/-- NOP (40_checksum.md R105): DONE = 1, OK = 1, ERR = NONE, FLAG = 0, and nothing else changes. CKCLR (R101): the same, with
ACC = 0. -/
def Obligations.NopCompletesAndCkclrClearsAcc : Prop :=
  ∀ (a : Byte) (imm : Half) (s : State), s.blk.phase = .idle →
    decodeCmd (imm ++ a ++ 0x00#8) = .nop a imm ∧ decodeCmd (imm ++ a ++ 0x01#8) = .ckclr a imm ∧
    exec (.nop a imm) s = .next (s.withBlk (s.blk.finished true .none)) ∧
    exec (.ckclr a imm) s = .next (s.withBlk { s.blk.finished true .none with acc := 0x0000#16 })

/-- CKADD (40_checksum.md R102): the sum wraps at 65536. -/
def Obligations.CkaddAddsByteWithWrap : Prop :=
  ∀ (a : Byte) (imm : Half) (s : State), s.blk.phase = .idle →
    decodeCmd (imm ++ a ++ 0x02#8) = .ckadd a imm ∧
    exec (.ckadd a imm) s = .next (s.withBlk
      { s.blk.finished true .none with acc := BitVec.ofNat 16 ((s.blk.acc.toNat + a.toNat) % 65536) })

/-- CKTX (40_checksum.md R103): the sum of a TXBUF prefix, BAD_ARG for more than 16 bytes. -/
def Obligations.CktxSumsTxbuf : Prop :=
  ∀ (a : Byte) (imm : Half) (s : State), s.blk.phase = .idle →
    decodeCmd (imm ++ a ++ 0x03#8) = .cktx a imm ∧
    (a.toNat ≤ 16 → exec (.cktx a imm) s = .next (s.withBlk
      { s.blk.finished true .none with acc := BitVec.ofNat 16 (s.blk.txbuf.total a.toNat % 65536) })) ∧
    (16 < a.toNat → exec (.cktx a imm) s = .next (s.withBlk (s.blk.finished false .badArg)))

/-- CKRX (40_checksum.md R104): the sum of an RXBUF prefix, BAD_ARG for more than 16 bytes. -/
def Obligations.CkrxSumsRxbuf : Prop :=
  ∀ (a : Byte) (imm : Half) (s : State), s.blk.phase = .idle →
    decodeCmd (imm ++ a ++ 0x04#8) = .ckrx a imm ∧
    (a.toNat ≤ 16 → exec (.ckrx a imm) s = .next (s.withBlk
      { s.blk.finished true .none with acc := BitVec.ofNat 16 (s.blk.rxbuf.total a.toNat % 65536) })) ∧
    (16 < a.toNat → exec (.ckrx a imm) s = .next (s.withBlk (s.blk.finished false .badArg)))

/-- Every command word whose OP is outside the map (30_encoding.md R85), and no other (R83), is ILLEGAL: it completes with
ERR = ILLEGAL and changes nothing else. LDCMD of an unknown kind reports the same code. -/
def Obligations.UnmappedOpIsIllegal : Prop :=
  ∀ (v : Word) (s : State), s.blk.phase = .idle →
    (decodeCmd v = .illegal (fieldOp v) (fieldA v) (fieldImm v) ↔
      fieldOp v ∉ [0x00#8, 0x01#8, 0x02#8, 0x03#8, 0x04#8, 0x10#8, 0x11#8, 0x12#8, 0x20#8, 0x21#8, 0x22#8, 0x23#8, 0x24#8,
        0x25#8, 0x30#8, 0x31#8]) ∧
    exec (.illegal (fieldOp v) (fieldA v) (fieldImm v)) s = .next (s.withBlk (s.blk.finished false .illegal)) ∧
    (fieldOp v = 0x11#8 → fieldA v ∉ [0x01#8, 0x03#8, 0x04#8, 0x05#8] →
      exec (decodeCmd v) s = .next (s.withBlk { s.blk.finished false .illegal with kvalid := false }))

/-- The laws of the byte sum (40_checksum.md R106, a to e). -/
def Obligations.SumLaws : Prop :=
  (∀ (bs : List Byte) (x : Byte), (sum16 (bs ++ [x])).toNat = ((sum16 bs).toNat + x.toNat) % 65536) ∧
  (∀ bs cs : List Byte, (sum16 (bs ++ cs)).toNat = ((sum16 bs).toNat + (sum16 cs).toNat) % 65536) ∧
  (∀ bs : List Byte, bs.length ≤ 257 → (sum16 bs).toNat = (bs.map BitVec.toNat).sum) ∧
  (∀ (bs : List Byte) (i j : Nat) (hi : i < bs.length) (hj : j < bs.length),
    sum16 ((bs.set i bs[j]).set j bs[i]) = sum16 bs) ∧
  (∀ (bs : List Byte) (i j : Nat) (hi : i < bs.length) (hj : j < bs.length) (d : Byte), i ≠ j →
    bs[i].toNat + d.toNat ≤ 255 → d.toNat ≤ bs[j].toNat →
    sum16 ((bs.set i (bs[i] + d)).set j (bs[j] - d)) = sum16 bs) ∧
  (∀ (bs : List Byte) (i : Nat) (hi : i < bs.length) (x : Byte), x ≠ bs[i] → sum16 (bs.set i x) ≠ sum16 bs)

/-! ## The command framer -/

/-- BUILD (41_framer.md R121 over inject, R120). -/
def Obligations.BuildInjectsChecksum : Prop :=
  ∀ (a : Byte) (imm : Half) (s : State), s.blk.phase = .idle →
    decodeCmd (imm ++ a ++ 0x10#8) = .build a imm ∧
    (∀ h : 2 ≤ a.toNat ∧ a.toNat ≤ 16, ∃ tb : Buf,
      exec (.build a imm) s = .next (s.withBlk
        { s.blk.finished true .none with
          txbuf := tb, acc := BitVec.ofNat 16 (s.blk.txbuf.total (a.toNat - 2) % 65536),
          txlen := BitVec.ofNat 5 a.toNat, txpos := 0#5, kvalid := false }) ∧
      tb.goodFrame ⟨a.toNat, h⟩ ∧
      ∀ (i : Nat) (_ : i < 16), i ≠ a.toNat - 2 → i ≠ a.toNat - 1 → tb[i] = s.blk.txbuf[i]) ∧
    (a.toNat < 2 ∨ 16 < a.toNat → exec (.build a imm) s = .next (s.withBlk (s.blk.finished false .badArg)))

/-- LDCMD READ_CONC (43_exchange_and_commands.md R171): the 9-byte frame, its checksum in closed form; bytes 9 to 15 of TXBUF and
everything not named stay. -/
def Obligations.LdcmdLoadsReadConcFrame : Prop :=
  ∀ (imm : Half) (s : State), s.blk.phase = .idle →
    let lf := s.params.lfReadConc
    let ck := 0x0132#16 + byteSum lf
    ∃ tb : Buf,
      exec (.ldcmd 0x03#8 imm) s = .next (s.withBlk
        { s.blk.finished true .none with
          txbuf := tb, acc := ck, txlen := 9#5, txpos := 0#5, kind := 0x03#8, kvalid := true }) ∧
      tb.toList = [0x42#8, 0x4D#8, 0xA0#8, 0x00#8, 0x03#8, hi lf, lo lf, hi ck, lo ck] ++ s.blk.txbuf.toList.drop 9 ∧
      sum16 (tb.toList.take 7) = ck

/-- LDCMD SET_PRESSURE (43_exchange_and_commands.md R172): the 11-byte frame for a pressure of 700 to 1100. -/
def Obligations.LdcmdLoadsSetPressureFrame : Prop :=
  ∀ (p : Half) (s : State), s.blk.phase = .idle → 700 ≤ p.toNat → p.toNat ≤ 1100 →
    let lf := s.params.lfSetPressure
    let ck := 0x0130#16 + byteSum lf + byteSum p
    ∃ tb : Buf,
      exec (.ldcmd 0x01#8 p) s = .next (s.withBlk
        { s.blk.finished true .none with
          txbuf := tb, acc := ck, txlen := 11#5, txpos := 0#5, kind := 0x01#8, kvalid := true }) ∧
      tb.toList = [0x42#8, 0x4D#8, 0xA0#8, 0x00#8, 0x01#8, hi lf, lo lf, hi p, lo p, hi ck, lo ck]
        ++ s.blk.txbuf.toList.drop 11 ∧
      sum16 (tb.toList.take 9) = ck

/-- LDCMD SPC_STATUS (43_exchange_and_commands.md R173): the 9-byte frame. -/
def Obligations.LdcmdLoadsSpcStatusFrame : Prop :=
  ∀ (imm : Half) (s : State), s.blk.phase = .idle →
    let lf := s.params.lfSpcStatus
    let ck := 0x0134#16 + byteSum lf
    ∃ tb : Buf,
      exec (.ldcmd 0x05#8 imm) s = .next (s.withBlk
        { s.blk.finished true .none with
          txbuf := tb, acc := ck, txlen := 9#5, txpos := 0#5, kind := 0x05#8, kvalid := true }) ∧
      tb.toList = [0x42#8, 0x4D#8, 0xA0#8, 0x00#8, 0x05#8, hi lf, lo lf, hi ck, lo ck] ++ s.blk.txbuf.toList.drop 9 ∧
      sum16 (tb.toList.take 7) = ck

/-- LDCMD SET_SPC (43_exchange_and_commands.md R174): the 13-byte frame for a target of 400 to SPC_MAX. -/
def Obligations.LdcmdLoadsSetSpcFrame : Prop :=
  ∀ (t : Half) (s : State), s.blk.phase = .idle → 400 ≤ t.toNat → t.toNat ≤ s.params.spcMax.val.toNat →
    let lf := s.params.lfSetSpc
    let ck := 0x0133#16 + byteSum lf + byteSum t
    ∃ tb : Buf,
      exec (.ldcmd 0x04#8 t) s = .next (s.withBlk
        { s.blk.finished true .none with
          txbuf := tb, acc := ck, txlen := 13#5, txpos := 0#5, kind := 0x04#8, kvalid := true }) ∧
      tb.toList = [0x42#8, 0x4D#8, 0xA0#8, 0x00#8, 0x04#8, hi lf, lo lf, 0x00#8, 0x00#8, hi t, lo t, hi ck, lo ck]
        ++ s.blk.txbuf.toList.drop 13 ∧
      sum16 (tb.toList.take 11) = ck

/-- LDCMD of an unknown kind or of a parameter out of range (41_framer.md R122): only KVALID and the outcome change. -/
def Obligations.LdcmdRejectsBadOperands : Prop :=
  ∀ (a : Byte) (imm : Half) (s : State), s.blk.phase = .idle →
    decodeCmd (imm ++ a ++ 0x11#8) = .ldcmd a imm ∧
    (a ∉ [0x01#8, 0x03#8, 0x04#8, 0x05#8] →
      exec (.ldcmd a imm) s = .next (s.withBlk { s.blk.finished false .illegal with kvalid := false })) ∧
    (a = 0x01#8 → imm.toNat < 700 ∨ 1100 < imm.toNat →
      exec (.ldcmd a imm) s = .next (s.withBlk { s.blk.finished false .validation with kvalid := false })) ∧
    (a = 0x04#8 → imm.toNat < 400 ∨ s.params.spcMax.val.toNat < imm.toNat →
      exec (.ldcmd a imm) s = .next (s.withBlk { s.blk.finished false .validation with kvalid := false }))

/-- SEND (41_framer.md R123): starts the send phase, or reports BAD_ARG when nothing was built. -/
def Obligations.SendStartsSendPhase : Prop :=
  ∀ (a : Byte) (imm : Half) (s : State), s.blk.phase = .idle →
    decodeCmd (imm ++ a ++ 0x12#8) = .send a imm ∧
    (s.blk.txlen ≠ 0#5 → exec (.send a imm) s = .next (s.withBlk
      { s.blk.started with txpos := 0#5, chain := false, phase := .sending })) ∧
    (s.blk.txlen = 0#5 → exec (.send a imm) s = .next (s.withBlk (s.blk.finished false .badArg)))

/-- The round trip (42_parser.md R145, 95_test_vectors.md L1.2): BUILD then VFYTX of the same length, and a successful LDCMD then
VFYTX of the command's length, always verify. -/
def Obligations.BuiltFramesVerify : Prop :=
  (∀ (a : Byte) (imm imm' : Half) (s t : State), s.blk.phase = .idle → 2 ≤ a.toNat → a.toNat ≤ 16 →
    exec (.build a imm) s = .next t →
    ∃ u, exec (.vfytx a imm') t = .next u ∧ u.blk.ckok = true ∧ u.blk.ok = true ∧ u.blk.acc = t.blk.acc) ∧
  (∀ (a : Byte) (imm imm' : Half) (k : Kind) (s t : State), s.blk.phase = .idle → Kind.ofByte? a = some k →
    exec (.ldcmd a imm) s = .next t → t.blk.ok = true →
    ∃ u, exec (.vfytx (BitVec.ofNat 8 (cmdLen k).val) imm') t = .next u ∧ u.blk.ckok = true ∧ u.blk.ok = true)

/-! ## The wire frames and the send phase -/

/-- The TXACC event (41_framer.md R124): in a send phase the byte at TXPOS goes out; after the last one SEND completes and XCHG
starts its receive phase. -/
def Obligations.TxaccSendsByteAtTxpos : Prop :=
  ∀ (s : State) (rest : List Input), s.env.inputs = .txAcc :: rest → s.blk.phase = .sending →
    ∀ h : s.blk.txpos.toNat < 16,
    let env := { s.env with inputs := rest, txStream := s.env.txStream ++ [s.blk.txbuf[s.blk.txpos.toNat]] }
    let b := { s.blk with txpos := BitVec.ofNat 5 (s.blk.txpos.toNat + 1) }
    (s.blk.txpos.toNat + 1 ≠ s.blk.txlen.toNat → step s = .next { s with blk := b, env := env }) ∧
    (s.blk.txpos.toNat + 1 = s.blk.txlen.toNat → s.blk.chain = false →
      step s = .next { s with blk := { b with phase := .idle, done := true, ok := true, err := .none }, env := env }) ∧
    (s.blk.txpos.toNat + 1 = s.blk.txlen.toNat → s.blk.chain = true → ∀ k : Kind, Kind.ofByte? s.blk.kind = some k →
      step s = .next { s with
        blk := { b with rxlen := BitVec.ofNat 5 (rspLen k).val, rxcnt := 0#5, phase := .receiving }, env := env })

/-- FRAME_READ_CONC, FRAME_SET_PRESSURE, FRAME_SPC_STATUS, FRAME_SET_SPC: while the frame is the frame in flight, each step of it
puts its next byte on the TX stream (20_memory.md R68, 43_exchange_and_commands.md R171 to R174; that a frame's meaning is one
TXACC event of it is the model's choice, log entry 7). -/
def Obligations.FrameRowsSendTheirBytes : Prop :=
  ∀ (i : Instr) (bs : List Byte) (s : State), encode i = .wire bs →
    s.blk.phase = .sending → s.blk.txlen.toNat = bs.length → s.blk.txbuf.toList.take bs.length = bs →
    ∀ h : s.blk.txpos.toNat < bs.length,
    let env := { s.env with txStream := s.env.txStream ++ [bs[s.blk.txpos.toNat]] }
    let b := { s.blk with txpos := BitVec.ofNat 5 (s.blk.txpos.toNat + 1) }
    (s.blk.txpos.toNat + 1 < bs.length → exec i s = .next { s with blk := b, env := env }) ∧
    (s.blk.txpos.toNat + 1 = bs.length → s.blk.chain = false →
      exec i s = .next { s with blk := { b with phase := .idle, done := true, ok := true, err := .none }, env := env }) ∧
    (s.blk.txpos.toNat + 1 = bs.length → s.blk.chain = true → ∀ k : Kind, Kind.ofByte? s.blk.kind = some k →
      exec i s = .next { s with
        blk := { b with rxlen := BitVec.ofNat 5 (rspLen k).val, rxcnt := 0#5, phase := .receiving }, env := env })

/-- A successful LDCMD leaves in TXBUF the encoding of a well-formed wire frame of the instance (30_encoding.md R87). -/
def Obligations.LdcmdLoadsWellFormedFrame : Prop :=
  ∀ (a : Byte) (imm : Half) (s t : State), s.blk.phase = .idle → exec (.ldcmd a imm) s = .next t → t.blk.ok = true →
    ∃ i : Instr, i.wf s.params = true ∧ encode i = .wire (t.blk.txbuf.toList.take t.blk.txlen.toNat)

/-- A whole SEND: TXLEN acceptances put TXBUF[0..TXLEN-1] on the TX stream in increasing offset order and complete the operation
(41_framer.md R124, 20_memory.md R68), whatever TXBUF holds. -/
def Obligations.SendPhaseEmitsWholeFrame : Prop :=
  ∀ (s : State) (rest : List Input), s.blk.phase = .sending → s.blk.chain = false → s.blk.txpos = 0#5 →
    0 < s.blk.txlen.toNat → s.blk.txlen.toNat ≤ 16 →
    s.env.inputs = List.replicate s.blk.txlen.toNat .txAcc ++ rest →
    run s.blk.txlen.toNat s = .next { s with
      blk := { s.blk with txpos := s.blk.txlen, phase := .idle, done := true, ok := true, err := .none },
      env := { s.env with inputs := rest, txStream := s.env.txStream ++ s.blk.txbuf.toList.take s.blk.txlen.toNat } }

/-- A sink that never accepts (70_reset_and_hazards.md R243, 41_framer.md R125): with no TXACC and no RESET to come, no run of any
length ends the send phase or changes any register but DROP. -/
def Obligations.TransmitHangKeepsBusy : Prop :=
  ∀ (k : Nat) (s t : State), s.blk.phase = .sending → (∀ x ∈ s.env.inputs, x.isStall) → run k s = .next t →
    t.blk = { s.blk with drop := t.blk.drop } ∧ t.env.txStream = s.env.txStream

/-! ## The response parser -/

/-- RECV (42_parser.md R141): starts the receive phase of a length 2 to 16, else BAD_ARG; CKOK is cleared either way (R46). -/
def Obligations.RecvStartsReceivePhase : Prop :=
  ∀ (a : Byte) (imm : Half) (s : State), s.blk.phase = .idle →
    decodeCmd (imm ++ a ++ 0x20#8) = .recv a imm ∧
    (2 ≤ a.toNat → a.toNat ≤ 16 → exec (.recv a imm) s = .next (s.withBlk
      { s.blk.started with
        ckok := false, chain := false, rxlen := BitVec.ofNat 5 a.toNat, rxcnt := 0#5, phase := .receiving })) ∧
    (a.toNat < 2 ∨ 16 < a.toNat →
      exec (.recv a imm) s = .next (s.withBlk { s.blk.finished false .badArg with ckok := false }))

/-- VERIFY (42_parser.md R144, R140): ACC takes the sum of the first L-2 bytes of RXBUF, CKOK whether the last two bytes hold it. -/
def Obligations.VerifyComparesRxbuf : Prop :=
  ∀ (a : Byte) (imm : Half) (s : State), s.blk.phase = .idle →
    let sum := BitVec.ofNat 16 (s.blk.rxbuf.total (a.toNat - 2) % 65536)
    decodeCmd (imm ++ a ++ 0x21#8) = .verify a imm ∧
    (∀ h : 2 ≤ a.toNat ∧ a.toNat ≤ 16,
      (s.blk.rxbuf.goodFrame ⟨a.toNat, h⟩ → exec (.verify a imm) s = .next (s.withBlk
        { s.blk.finished true .none with ckok := true, acc := sum })) ∧
      (¬ s.blk.rxbuf.goodFrame ⟨a.toNat, h⟩ → exec (.verify a imm) s = .next (s.withBlk
        { s.blk.finished false .checksum with ckok := false, acc := sum }))) ∧
    (a.toNat < 2 ∨ 16 < a.toNat →
      exec (.verify a imm) s = .next (s.withBlk { s.blk.finished false .badArg with ckok := false }))

/-- VFYTX (42_parser.md R145, R140): the same over TXBUF. -/
def Obligations.VfytxComparesTxbuf : Prop :=
  ∀ (a : Byte) (imm : Half) (s : State), s.blk.phase = .idle →
    let sum := BitVec.ofNat 16 (s.blk.txbuf.total (a.toNat - 2) % 65536)
    decodeCmd (imm ++ a ++ 0x22#8) = .vfytx a imm ∧
    (∀ h : 2 ≤ a.toNat ∧ a.toNat ≤ 16,
      (s.blk.txbuf.goodFrame ⟨a.toNat, h⟩ → exec (.vfytx a imm) s = .next (s.withBlk
        { s.blk.finished true .none with ckok := true, acc := sum })) ∧
      (¬ s.blk.txbuf.goodFrame ⟨a.toNat, h⟩ → exec (.vfytx a imm) s = .next (s.withBlk
        { s.blk.finished false .checksum with ckok := false, acc := sum }))) ∧
    (a.toNat < 2 ∨ 16 < a.toNat →
      exec (.vfytx a imm) s = .next (s.withBlk { s.blk.finished false .badArg with ckok := false }))

/-- GETU8 (42_parser.md R147). -/
def Obligations.Getu8ExtractsByte : Prop :=
  ∀ (a : Byte) (imm : Half) (s : State), s.blk.phase = .idle →
    decodeCmd (imm ++ a ++ 0x23#8) = .getu8 a imm ∧
    (∀ _ : a.toNat < 16, exec (.getu8 a imm) s = .next (s.withBlk
      { s.blk.finished true .none with result := BitVec.ofNat 32 s.blk.rxbuf[a.toNat].toNat })) ∧
    (15 < a.toNat → exec (.getu8 a imm) s = .next (s.withBlk (s.blk.finished false .badArg)))

/-- GETU16 (42_parser.md R148): RXBUF[off] is the high byte. -/
def Obligations.Getu16ExtractsBigEndian : Prop :=
  ∀ (a : Byte) (imm : Half) (s : State), s.blk.phase = .idle →
    decodeCmd (imm ++ a ++ 0x24#8) = .getu16 a imm ∧
    (∀ _ : a.toNat + 1 < 16, exec (.getu16 a imm) s = .next (s.withBlk
      { s.blk.finished true .none with
        result := BitVec.ofNat 32 (s.blk.rxbuf[a.toNat].toNat * 256 + s.blk.rxbuf[a.toNat + 1].toNat) })) ∧
    (14 < a.toNat → exec (.getu16 a imm) s = .next (s.withBlk (s.blk.finished false .badArg)))

/-- GETU32 (42_parser.md R149): RXBUF[off] is the most significant byte. -/
def Obligations.Getu32ExtractsBigEndian : Prop :=
  ∀ (a : Byte) (imm : Half) (s : State), s.blk.phase = .idle →
    decodeCmd (imm ++ a ++ 0x25#8) = .getu32 a imm ∧
    (∀ _ : a.toNat + 3 < 16, exec (.getu32 a imm) s = .next (s.withBlk
      { s.blk.finished true .none with
        result := BitVec.ofNat 32 (s.blk.rxbuf[a.toNat].toNat * 2 ^ 24 + s.blk.rxbuf[a.toNat + 1].toNat * 2 ^ 16
          + s.blk.rxbuf[a.toNat + 2].toNat * 2 ^ 8 + s.blk.rxbuf[a.toNat + 3].toNat) })) ∧
    (12 < a.toNat → exec (.getu32 a imm) s = .next (s.withBlk (s.blk.finished false .badArg)))

/-- A byte that is not the last of a response (42_parser.md R142): it goes to SHADOW and to nowhere the host can see. -/
def Obligations.RxbyteCollectsIntoShadow : Prop :=
  ∀ (s : State) (rest : List Input) (x : Byte) (more : List Byte), s.env.inputs = .rxByte :: rest →
    s.env.rxFifo = x :: more → s.blk.phase = .receiving → ∀ h : s.blk.rxcnt.toNat < 16,
    s.blk.rxcnt.toNat + 1 ≠ s.blk.rxlen.toNat →
    step s = .next { s with
      blk := { s.blk with shadow := s.blk.shadow.set s.blk.rxcnt.toNat x, rxcnt := BitVec.ofNat 5 (s.blk.rxcnt.toNat + 1) },
      env := { s.env with inputs := rest, rxFifo := more } }

/-- A whole RECV (42_parser.md R141, R142): RXLEN bytes taken in order; RXBUF receives them exactly when the checksum matches. -/
def Obligations.ReceivePhaseDeliversOnlyGoodFrames : Prop :=
  ∀ (s : State) (rest : List Input) (bytes more : List Byte), s.blk.phase = .receiving → s.blk.chain = false →
    s.blk.rxcnt = 0#5 → 2 ≤ s.blk.rxlen.toNat → s.blk.rxlen.toNat ≤ 16 → bytes.length = s.blk.rxlen.toNat →
    s.env.rxFifo = bytes ++ more → s.env.inputs = List.replicate bytes.length .rxByte ++ rest →
    ∃ t : State, run bytes.length s = .next t ∧ t.params = s.params ∧
      t.env = { s.env with inputs := rest, rxFifo := more } ∧
      t.blk.acc = sum16 (bytes.take (bytes.length - 2)) ∧
      t.blk.shadow.toList = bytes ++ s.blk.shadow.toList.drop bytes.length ∧
      (bytes.drop (bytes.length - 2) = [hi t.blk.acc, lo t.blk.acc] →
        t.blk = { s.blk with
          phase := .idle, done := true, ok := true, err := .none, ckok := true, rxcnt := s.blk.rxlen, acc := t.blk.acc,
          shadow := t.blk.shadow, rxbuf := t.blk.rxbuf } ∧
        t.blk.rxbuf.toList = bytes ++ s.blk.rxbuf.toList.drop bytes.length) ∧
      (bytes.drop (bytes.length - 2) ≠ [hi t.blk.acc, lo t.blk.acc] →
        t.blk = { s.blk with
          phase := .idle, done := true, ok := false, err := .checksum, ckok := false, rxcnt := s.blk.rxlen,
          acc := t.blk.acc, shadow := t.blk.shadow })

/-- TIMEOUT (42_parser.md R143, 43_exchange_and_commands.md R182): a receive phase ends at once with ERR = TIMEOUT, and a
READ_CONC exchange answers the cached concentration; RXBUF and CONC stay. -/
def Obligations.TimeoutEndsReceivePhase : Prop :=
  ∀ (s : State) (rest : List Input), s.env.inputs = .timeout :: rest → s.blk.phase = .receiving →
    step s = .next { s with
      blk := { s.blk with
        phase := .idle, chain := false, done := true, ok := false, err := .timeout,
        result := if s.blk.chain = true ∧ s.blk.kind = 0x03#8 then s.blk.conc else s.blk.result },
      env := { s.env with inputs := rest } }

/-- Events that are not enabled have no effect on the block or the streams (10_state.md R22, 60_exceptions.md R208; that the step
then only uses the input up is the model's choice, log entry 2). -/
def Obligations.DisabledEventsHaveNoEffect : Prop :=
  ∀ (s : State) (rest : List Input),
    (s.env.inputs = .timeout :: rest → s.blk.phase ≠ .receiving → step s = .next s.pop) ∧
    (s.env.inputs = .txAcc :: rest → s.blk.phase ≠ .sending → step s = .next s.pop) ∧
    (s.env.inputs = .rxByte :: rest → s.blk.phase ≠ .receiving ∨ s.env.rxFifo = [] → step s = .next s.pop)

/-! ## The exchange sequencer -/

/-- XCHG (43_exchange_and_commands.md R175): with no loaded command BAD_ARG; else the checksum is injected again and the send phase
of an exchange starts. -/
def Obligations.XchgStartsExchange : Prop :=
  ∀ (a : Byte) (imm : Half) (s : State), s.blk.phase = .idle →
    decodeCmd (imm ++ a ++ 0x30#8) = .xchg a imm ∧
    (s.blk.kvalid = false →
      exec (.xchg a imm) s = .next (s.withBlk { s.blk.finished false .badArg with ckok := false })) ∧
    (s.blk.kvalid = true → ∀ h : 2 ≤ s.blk.txlen.toNat ∧ s.blk.txlen.toNat ≤ 16, ∃ tb : Buf,
      exec (.xchg a imm) s = .next (s.withBlk
        { s.blk.started with
          ckok := false, txbuf := tb, acc := BitVec.ofNat 16 (s.blk.txbuf.total (s.blk.txlen.toNat - 2) % 65536),
          txpos := 0#5, chain := true, phase := .sending }) ∧
      tb.goodFrame ⟨s.blk.txlen.toNat, h⟩ ∧
      ∀ (i : Nat) (_ : i < 16), i ≠ s.blk.txlen.toNat - 2 → i ≠ s.blk.txlen.toNat - 1 → tb[i] = s.blk.txbuf[i])

/-- PARSE of a READ_CONC response (43_exchange_and_commands.md R176, R178). That ACC holds the sum also where ERR is SENSOR_STATUS is the
model's reading, against the wording of 60_exceptions.md R202 (DEDUCED, log entry 9). -/
def Obligations.ParseDecodesReadConc : Prop :=
  ∀ (a : Byte) (imm : Half) (s : State), s.blk.phase = .idle → s.blk.kvalid = true → s.blk.kind = 0x03#8 →
    s.blk.rxbuf.goodFrame ⟨14, by decide⟩ →
    let sum := BitVec.ofNat 16 (s.blk.rxbuf.total 12 % 65536)
    let v := BitVec.ofNat 32 (s.blk.rxbuf[7].toNat * 2 ^ 24 + s.blk.rxbuf[8].toNat * 2 ^ 16
      + s.blk.rxbuf[9].toNat * 2 ^ 8 + s.blk.rxbuf[10].toNat)
    (s.blk.rxbuf[11] = 0x00#8 → exec (.parse a imm) s = .next (s.withBlk
      { s.blk.finished true .none with ckok := true, acc := sum, conc := v, result := v, warm := true })) ∧
    (s.blk.rxbuf[11] ≠ 0x00#8 → exec (.parse a imm) s = .next (s.withBlk
      { s.blk.finished false .sensorStatus with ckok := true, acc := sum, result := s.blk.conc }))

/-- PARSE of a SET_PRESSURE response (43_exchange_and_commands.md R179): no byte but the checksum counts. -/
def Obligations.ParseDecodesSetPressure : Prop :=
  ∀ (a : Byte) (imm : Half) (s : State), s.blk.phase = .idle → s.blk.kvalid = true → s.blk.kind = 0x01#8 →
    s.blk.rxbuf.goodFrame ⟨11, by decide⟩ →
    exec (.parse a imm) s = .next (s.withBlk
      { s.blk.finished true .none with ckok := true, acc := BitVec.ofNat 16 (s.blk.rxbuf.total 9 % 65536) })

/-- PARSE of an SPC_STATUS response (43_exchange_and_commands.md R180): not ready is OK = 0 with ERR = NONE. -/
def Obligations.ParseDecodesSpcStatus : Prop :=
  ∀ (a : Byte) (imm : Half) (s : State), s.blk.phase = .idle → s.blk.kvalid = true → s.blk.kind = 0x05#8 →
    s.blk.rxbuf.goodFrame ⟨10, by decide⟩ →
    let sum := BitVec.ofNat 16 (s.blk.rxbuf.total 8 % 65536)
    let ready := s.blk.rxbuf[s.params.spcReadyOff.val]'(by omega)
    (ready = 0x00#8 → exec (.parse a imm) s = .next (s.withBlk
      { s.blk.finished true .none with ckok := true, acc := sum, flag := true })) ∧
    (ready ≠ 0x00#8 → exec (.parse a imm) s = .next (s.withBlk
      { s.blk.finished false .none with ckok := true, acc := sum, flag := false }))

/-- PARSE of a SET_SPC response (43_exchange_and_commands.md R176, R181): a zero flag is a SENSOR_STATUS error. That ACC holds the sum
there too is the model's reading, against the wording of 60_exceptions.md R202 (DEDUCED, log entry 9). -/
def Obligations.ParseDecodesSetSpc : Prop :=
  ∀ (a : Byte) (imm : Half) (s : State), s.blk.phase = .idle → s.blk.kvalid = true → s.blk.kind = 0x04#8 →
    s.blk.rxbuf.goodFrame ⟨10, by decide⟩ →
    let sum := BitVec.ofNat 16 (s.blk.rxbuf.total 8 % 65536)
    (s.blk.rxbuf[7] ≠ 0x00#8 → exec (.parse a imm) s = .next (s.withBlk
      { s.blk.finished true .none with ckok := true, acc := sum, flag := true })) ∧
    (s.blk.rxbuf[7] = 0x00#8 → exec (.parse a imm) s = .next (s.withBlk
      { s.blk.finished false .sensorStatus with ckok := true, acc := sum, flag := false }))

/-- PARSE with nothing loaded, or of a response whose checksum does not match (43_exchange_and_commands.md R176, R182). -/
def Obligations.ParseReportsFailures : Prop :=
  ∀ (a : Byte) (imm : Half) (s : State), s.blk.phase = .idle →
    decodeCmd (imm ++ a ++ 0x31#8) = .parse a imm ∧
    (s.blk.kvalid = false →
      exec (.parse a imm) s = .next (s.withBlk { s.blk.finished false .badArg with ckok := false })) ∧
    (s.blk.kvalid = true → ∀ k : Kind, Kind.ofByte? s.blk.kind = some k → ¬ s.blk.rxbuf.goodFrame (rspLen k) →
      exec (.parse a imm) s = .next (s.withBlk
        { s.blk.finished false .checksum with
          ckok := false, acc := BitVec.ofNat 16 (s.blk.rxbuf.total ((rspLen k).val - 2) % 65536),
          result := if s.blk.kind = 0x03#8 then s.blk.conc else s.blk.result }))

/-- The last byte of an exchange's response (42_parser.md R142). A response that verifies is copied to RXBUF and treated exactly as
PARSE treats the same bytes there (43_exchange_and_commands.md R176). One that does not ends the exchange with ERR = CHECKSUM, OK = 0,
CKOK = 0, ACC the sum of what came, RESULT = CONC for READ_CONC (R182), and leaves RXBUF and all else. That RXBUF and ACC hold a
verified response and its sum also where the decode then ends in SENSOR_STATUS is the model's reading, against the wording of
60_exceptions.md R202 and of the second sentence of 70_reset_and_hazards.md R242 (DEDUCED, log entry 9). -/
def Obligations.ExchangeEndsAsParseDoes : Prop :=
  ∀ (s : State) (rest : List Input) (x : Byte) (more : List Byte), s.blk.Inv →
    s.env.inputs = .rxByte :: rest → s.env.rxFifo = x :: more → s.blk.phase = .receiving → s.blk.chain = true →
    s.blk.rxcnt.toNat + 1 = s.blk.rxlen.toNat →
    ∀ (hx : s.blk.rxcnt.toNat < 16) (hL : 2 ≤ s.blk.rxlen.toNat ∧ s.blk.rxlen.toNat ≤ 16),
    let sh : Buf := s.blk.shadow.set s.blk.rxcnt.toNat x
    let ended := { s.blk with shadow := sh, rxcnt := s.blk.rxlen, phase := .idle, chain := false }
    let env := { s.env with inputs := rest, rxFifo := more }
    (sh.goodFrame ⟨s.blk.rxlen.toNat, hL⟩ → ∃ t : State, step s = .next t ∧ t.params = s.params ∧ t.env = env ∧
      t.blk.ckok = true ∧
      t.blk.rxbuf.toList = sh.toList.take s.blk.rxlen.toNat ++ s.blk.rxbuf.toList.drop s.blk.rxlen.toNat ∧
      ∀ (a : Byte) (imm : Half), exec (.parse a imm) (t.withBlk { ended with rxbuf := t.blk.rxbuf }) = .next t) ∧
    (¬ sh.goodFrame ⟨s.blk.rxlen.toNat, hL⟩ → step s = .next { s with
      blk := { ended with
        done := true, ok := false, err := .checksum, ckok := false, flag := false,
        acc := BitVec.ofNat 16 (sh.total (s.blk.rxlen.toNat - 2) % 65536),
        result := if s.blk.kind = 0x03#8 then s.blk.conc else s.blk.result },
      env := env })

/-- A whole concentration reading (43_exchange_and_commands.md R175, R178): after LDCMD READ_CONC, an XCHG whose frame the sink
accepts and whose 14-byte response verifies with status 0 sends the finalized frame and makes CONC and RESULT the big-endian value
at offsets 7 to 10. -/
def Obligations.ReadConcExchangeUpdatesReading : Prop :=
  ∀ (s : State) (rest : List Input) (resp more : List Byte) (v : Word) (x7 x8 x9 x10 : Byte),
    s.blk.phase = .idle → s.blk.kvalid = true → s.blk.kind = 0x03#8 → s.blk.txlen = 9#5 → fieldOp v = 0x30#8 →
    s.env.inputs = .hostWr s.params.base .word v :: (List.replicate 9 .txAcc ++ (List.replicate 14 .rxByte ++ rest)) →
    s.env.rxFifo = resp ++ more → resp.length = 14 → (resp.drop 7).take 5 = [x7, x8, x9, x10, 0x00#8] →
    resp.drop 12 = [hi (sum16 (resp.take 12)), lo (sum16 (resp.take 12))] →
    ∃ t : State, run 24 s = .next t ∧ t.blk.phase = .idle ∧ t.blk.done = true ∧ t.blk.ok = true ∧ t.blk.ckok = true ∧
      t.blk.err = .none ∧ t.blk.warm = true ∧
      t.blk.conc = BitVec.ofNat 32 (x7.toNat * 2 ^ 24 + x8.toNat * 2 ^ 16 + x9.toNat * 2 ^ 8 + x10.toNat) ∧
      t.blk.result = t.blk.conc ∧ t.blk.rxbuf.toList.take 14 = resp ∧ t.env.rxFifo = more ∧ t.env.inputs = rest ∧
      t.env.txStream = s.env.txStream ++ (s.blk.txbuf.toList.take 7 ++
        [hi (sum16 (s.blk.txbuf.toList.take 7)), lo (sum16 (s.blk.txbuf.toList.take 7))])

/-- A response with the standard header can never report ready through offset 8 (70_reset_and_hazards.md R245). -/
def Obligations.StandardHeaderNeverReady : Prop :=
  ∀ (a : Byte) (imm : Half) (s t : State), s.params.spcReadyOff = 8 → s.blk.phase = .idle → s.blk.kvalid = true →
    s.blk.kind = 0x05#8 → s.blk.rxbuf[0] = 0x42#8 → s.blk.rxbuf[1] = 0x4D#8 → s.blk.rxbuf[2] = 0xA0#8 →
    exec (.parse a imm) s = .next t → t.blk.flag = false ∧ t.blk.ok = false

/-! ## The host bus -/

/-- Host writes while idle, and of STATUS at any time (20_memory.md R64, R65). -/
def Obligations.HostWritesReachTheirRegister : Prop :=
  ∀ (s : State) (rest : List Input) (off : Nat) (v : Word),
    s.env.inputs = .hostWr (s.params.base + off) .word v :: rest →
    (off = 0x04 → step s = .next (s.pop.withBlk
      { s.blk with drop := if v.extractLsb' 16 1 = 1#1 then false else s.blk.drop })) ∧
    (off = 0x08 → s.blk.phase = .idle → step s = .next (s.pop.withBlk { s.blk with acc := v.extractLsb' 0 16 })) ∧
    (∀ (i : Nat) (_ : i < 16), off = 0x40 + 4 * i → s.blk.phase = .idle →
      step s = .next (s.pop.withBlk { s.blk with txbuf := s.blk.txbuf.set i (v.extractLsb' 0 8) })) ∧
    (∀ (i : Nat) (_ : i < 16), off = 0x80 + 4 * i → s.blk.phase = .idle →
      step s = .next (s.pop.withBlk { s.blk with rxbuf := s.blk.rxbuf.set i (v.extractLsb' 0 8) })) ∧
    (off ∈ [0x0C, 0x10, 0x14, 0x18] → step s = .next s.pop) ∧
    (off % 4 = 0 → (0x1C ≤ off ∧ off ≤ 0x3C) ∨ (0xC0 ≤ off ∧ off ≤ 0xFC) → step s = .next s.pop)

/-- A write of CMD, ACC, TXBUF or RXBUF while busy is dropped: only DROP changes (10_state.md R40, 20_memory.md R64). -/
def Obligations.BusyWritesAreDropped : Prop :=
  ∀ (s : State) (rest : List Input) (off : Nat) (v : Word),
    s.env.inputs = .hostWr (s.params.base + off) .word v :: rest → s.blk.phase ≠ .idle → off % 4 = 0 →
    off = 0x00 ∨ off = 0x08 ∨ (0x40 ≤ off ∧ off < 0xC0) →
    step s = .next (s.pop.withBlk { s.blk with drop := true })

/-- A host read at any word offset of the window hands the host the word of the register there (20_memory.md R63, R65) and changes
nothing else (R66). The word is said register by register; those of STATUS, FRAME and KINDREG are said field by field in
StatusWordsShowTheirFields, of the same `readReg` at the same offsets. -/
def Obligations.HostReadsReturnRegisters : Prop :=
  ∀ (s : State) (rest : List Input) (off : Nat),
    s.env.inputs = .hostRd (s.params.base + off) .word :: rest → off < 0x100 → off % 4 = 0 →
    ∃ v : Word, step s = .next { s with env := { s.env with inputs := rest, hostReads := s.env.hostReads ++ [v] } } ∧
      v = readReg s.blk (regAt off) ∧
      (off = 0x00 → v = 0#32) ∧ (off = 0x08 → v.toNat = s.blk.acc.toNat) ∧ (off = 0x0C → v = s.blk.result) ∧
      (off = 0x10 → v = s.blk.conc) ∧
      (∀ (i : Nat) (_ : i < 16), off = 0x40 + 4 * i → v.toNat = s.blk.txbuf[i].toNat) ∧
      (∀ (i : Nat) (_ : i < 16), off = 0x80 + 4 * i → v.toNat = s.blk.rxbuf[i].toNat) ∧
      ((0x1C ≤ off ∧ off ≤ 0x3C) ∨ (0xC0 ≤ off ∧ off ≤ 0xFC) → v = 0#32)

/-- The fields of STATUS, FRAME and KINDREG as the host reads them (10_state.md R41, R42, R43, R44). -/
def Obligations.StatusWordsShowTheirFields : Prop :=
  ∀ (b : Block),
    let st := readReg b (regAt 0x04)
    let fr := readReg b (regAt 0x14)
    let kr := readReg b (regAt 0x18)
    (st.getLsbD 0 = decide (b.phase ≠ .idle) ∧ st.getLsbD 1 = b.done ∧ st.getLsbD 2 = b.ok ∧ st.getLsbD 3 = b.ckok ∧
      st.getLsbD 4 = b.flag ∧
      st.extractLsb' 5 2 = (match b.phase with | .idle => 0#2 | .sending => 1#2 | .receiving => 2#2) ∧
      st.getLsbD 7 = false ∧
      st.extractLsb' 8 4 = (match b.err with
        | .none => 0#4 | .validation => 1#4 | .timeout => 2#4 | .checksum => 3#4 | .sensorStatus => 4#4 | .illegal => 5#4
        | .badArg => 6#4) ∧
      st.getLsbD 12 = b.warm ∧ st.extractLsb' 13 3 = 0#3 ∧ st.getLsbD 16 = b.drop ∧ st.extractLsb' 17 15 = 0#15) ∧
    (fr.extractLsb' 0 5 = b.txlen ∧ fr.extractLsb' 5 3 = 0#3 ∧ fr.extractLsb' 8 5 = b.txpos ∧ fr.extractLsb' 13 3 = 0#3 ∧
      fr.extractLsb' 16 5 = b.rxlen ∧ fr.extractLsb' 21 3 = 0#3 ∧ fr.extractLsb' 24 5 = b.rxcnt ∧
      fr.extractLsb' 29 3 = 0#3) ∧
    (kr.extractLsb' 0 8 = b.kind ∧ kr.getLsbD 8 = b.kvalid ∧ kr.extractLsb' 9 23 = 0#23)

/-- Accesses that are refused: inside the window, a width or an offset that is not a word's (20_memory.md R61). That an access outside
the window (below BASE, or from BASE + 0x100 upward) is refused under a name of its own is the model's choice (log entry 16):
93_implementation_defined.md F2 gives the block no step for offsets from 0x100 upward, and no rule speaks of addresses below BASE. -/
def Obligations.BadAccessesAreRefused : Prop :=
  ∀ (s : State) (rest : List Input) (addr : Nat) (size : AccessSize) (v : Word),
    s.env.inputs = .hostWr addr size v :: rest ∨ s.env.inputs = .hostRd addr size :: rest →
    (s.params.base ≤ addr → addr < s.params.base + 0x100 → size ≠ .word ∨ (addr - s.params.base) % 4 ≠ 0 →
      step s = .refused .busAccess) ∧
    (addr < s.params.base ∨ s.params.base + 0x100 ≤ addr → step s = .refused .outsideBlock)

/-- SHADOW is hidden (10_state.md R34): no event but the taking of a response byte can show it, in any register, stream, host read
or outcome. -/
def Obligations.ShadowIsHidden : Prop :=
  ∀ (s : State) (sh : Buf), s.env.inputs.head? ≠ some .rxByte →
    (∀ t, step s = .next t → ∃ sh' : Buf,
      step { s with blk := { s.blk with shadow := sh } } = .next { t with blk := { t.blk with shadow := sh' } }) ∧
    (∀ f, step s = .fault f → step { s with blk := { s.blk with shadow := sh } } = .fault f) ∧
    (∀ r, step s = .refused r → step { s with blk := { s.blk with shadow := sh } } = .refused r)

/-! ## Reset, invariants and whole-machine rules -/

/-- RESET (70_reset_and_hazards.md R230, R232, R233; 10_state.md R50): enabled in every state; every register at its reset value,
the buffers at some bytes, the streams outside the block unchanged. -/
def Obligations.ResetRestoresEveryRegister : Prop :=
  ∀ (s : State) (rest : List Input), s.env.inputs = .reset :: rest →
    ∃ t : State, step s = .next t ∧ t.params = s.params ∧ t.env.rxFifo = s.env.rxFifo ∧ t.env.txStream = s.env.txStream ∧
      t.env.hostReads = s.env.hostReads ∧ t.env.inputs = rest ∧
      t.blk = { phase := .idle, chain := false, txpos := 0#5, rxcnt := 0#5, acc := 0#16, result := 0#32, conc := 0#32,
                txbuf := t.blk.txbuf, rxbuf := t.blk.rxbuf, shadow := t.blk.shadow, txlen := 0#5, rxlen := 0#5, kind := 0#8,
                kvalid := false, done := false, ok := false, ckok := false, flag := false, err := .none, warm := false,
                drop := false }

/-- The reset state meets the invariant (10_state.md R38, R50). -/
def Obligations.ResetMeetsInvariants : Prop := State.reset.blk.Inv

/-- Every event keeps the invariants of 10_state.md R38 (strengthened by what DEDUCED facts they need). -/
def Obligations.EveryStepKeepsInvariants : Prop :=
  ∀ s t : State, s.blk.Inv → step s = .next t → t.blk.Inv

/-- In a state that meets the invariants no event faults: the block always has a meaning (60_exceptions.md R203). -/
def Obligations.InvariantStatesNeverFault : Prop :=
  ∀ (s : State) (f : Fault), s.blk.Inv → step s ≠ .fault f

/-- CONC changes only at RESET or by a verified READ_CONC response with status 0 (10_state.md R31), which also sets RESULT, OK, CKOK
and WARM. -/
def Obligations.ConcOnlyFromVerifiedReading : Prop :=
  ∀ s t : State, s.blk.Inv → step s = .next t → t.blk.conc ≠ s.blk.conc →
    s.env.inputs.head? = some .reset ∨
      (s.blk.kind = 0x03#8 ∧ t.blk.ckok = true ∧ t.blk.ok = true ∧ t.blk.warm = true ∧ t.blk.result = t.blk.conc ∧
        t.blk.rxbuf.goodFrame ⟨14, by decide⟩ ∧ t.blk.rxbuf[11] = 0x00#8 ∧
        t.blk.conc = BitVec.ofNat 32 (t.blk.rxbuf[7].toNat * 2 ^ 24 + t.blk.rxbuf[8].toNat * 2 ^ 16
          + t.blk.rxbuf[9].toNat * 2 ^ 8 + t.blk.rxbuf[10].toNat))

/-- WARM (10_state.md R51): only RESET clears it, only a successful READ_CONC decode sets it, and while it is 0 CONC is 0. -/
def Obligations.WarmMeansAReadingArrived : Prop :=
  ∀ s t : State, step s = .next t → s.env.inputs.head? ≠ some .reset →
    (s.blk.warm = true → t.blk.warm = true) ∧
    (s.blk.warm = false → t.blk.warm = true →
      s.blk.kind = 0x03#8 ∧ t.blk.ok = true ∧ t.blk.ckok = true ∧ t.blk.rxbuf[11] = 0x00#8) ∧
    ((s.blk.warm = false → s.blk.conc = 0#32) → t.blk.warm = false → t.blk.conc = 0#32)

/-- RXBUF changes only at RESET, by a host write, or by a response that passed its checksum (the first sentence of
70_reset_and_hazards.md R242; its second, about a failed XCHG, is log entry 9). -/
def Obligations.RxbufOnlyFromHostOrVerifiedResponse : Prop :=
  ∀ s t : State, step s = .next t → t.blk.rxbuf ≠ s.blk.rxbuf →
    s.env.inputs.head? = some .reset ∨
    (∃ (off : Nat) (v : Word), 0x80 ≤ off ∧ off < 0xC0 ∧
      s.env.inputs.head? = some (.hostWr (s.params.base + off) .word v) ∧ s.blk.phase = .idle) ∨
    (s.env.inputs.head? = some .rxByte ∧ s.blk.phase = .receiving ∧ t.blk.phase = .idle ∧ t.blk.ckok = true)

/-- CKOK at the issue of an operation (10_state.md R46): RECV, XCHG, VERIFY, VFYTX and PARSE clear it, and of these only the
checksum comparison of VERIFY, VFYTX or PARSE sets it at once; every other operation leaves it. -/
def Obligations.CkokDiscipline : Prop :=
  ∀ (v : Word) (s t : State), s.blk.phase = .idle → exec (decodeCmd v) s = .next t →
    (fieldOp v ∈ [0x20#8, 0x30#8] → t.blk.ckok = false) ∧
    (fieldOp v = 0x21#8 → (t.blk.ckok = true ↔
      ∃ h : 2 ≤ (fieldA v).toNat ∧ (fieldA v).toNat ≤ 16, s.blk.rxbuf.goodFrame ⟨(fieldA v).toNat, h⟩)) ∧
    (fieldOp v = 0x22#8 → (t.blk.ckok = true ↔
      ∃ h : 2 ≤ (fieldA v).toNat ∧ (fieldA v).toNat ≤ 16, s.blk.txbuf.goodFrame ⟨(fieldA v).toNat, h⟩)) ∧
    (fieldOp v = 0x31#8 → (t.blk.ckok = true ↔
      s.blk.kvalid = true ∧ ∃ k : Kind, Kind.ofByte? s.blk.kind = some k ∧ s.blk.rxbuf.goodFrame (rspLen k))) ∧
    (fieldOp v ∉ [0x20#8, 0x21#8, 0x22#8, 0x30#8, 0x31#8] → t.blk.ckok = s.blk.ckok)

/-- An operation that ends with an error at its command word leaves cached state untouched (60_exceptions.md R202): CONC, WARM,
RXBUF, TXBUF, TXLEN and KIND never change, RESULT only to CONC, KVALID only in LDCMD, ACC only where a checksum was computed (that
this takes in SENSOR_STATUS is DEDUCED, log entry 9). -/
def Obligations.ErrorLeavesCachedState : Prop :=
  ∀ (v : Word) (s t : State), s.blk.phase = .idle → exec (decodeCmd v) s = .next t → t.blk.err ≠ .none →
    t.blk.done = true ∧ t.blk.ok = false ∧ t.blk.conc = s.blk.conc ∧ t.blk.warm = s.blk.warm ∧ t.blk.rxbuf = s.blk.rxbuf ∧
    t.blk.txbuf = s.blk.txbuf ∧ t.blk.txlen = s.blk.txlen ∧ t.blk.kind = s.blk.kind ∧
    (t.blk.result = s.blk.result ∨ t.blk.result = s.blk.conc) ∧
    (t.blk.kvalid = s.blk.kvalid ∨ (fieldOp v = 0x11#8 ∧ t.blk.kvalid = false)) ∧
    (t.blk.acc = s.blk.acc ∨ t.blk.err = .checksum ∨ t.blk.err = .sensorStatus)

/-- DROP is sticky (60_exceptions.md R204): once set, only RESET or a host write of STATUS with bit 16 clears it. -/
def Obligations.DropIsSticky : Prop :=
  ∀ s t : State, step s = .next t → s.blk.drop = true → t.blk.drop = false →
    s.env.inputs.head? = some .reset ∨
    ∃ v : Word, s.env.inputs.head? = some (.hostWr (s.params.base + 0x04) .word v) ∧ v.getLsbD 16 = true

/-- The streams (10_state.md R21, R22, 20_memory.md R68). RX: a byte that arrives goes to the end of the FIFO and is never dropped;
an RXBYTE event of a receive phase takes the head; nothing else changes the FIFO, so no byte is lost or reordered. TX: a TXACC event of
a send phase appends the byte at TXPOS; nothing else changes the stream. -/
def Obligations.StreamsMoveOneByteAtATime : Prop :=
  ∀ s t : State, step s = .next t →
    (∀ b : Byte, s.env.inputs.head? = some (.rxArrive b) → t.env.rxFifo = s.env.rxFifo ++ [b]) ∧
    (s.env.inputs.head? = some .rxByte → s.blk.phase = .receiving → t.env.rxFifo = s.env.rxFifo.tail) ∧
    ((∀ b : Byte, s.env.inputs.head? ≠ some (.rxArrive b)) →
      ¬ (s.env.inputs.head? = some .rxByte ∧ s.blk.phase = .receiving) → t.env.rxFifo = s.env.rxFifo) ∧
    (s.env.inputs.head? = some .txAcc → s.blk.phase = .sending → ∃ h : s.blk.txpos.toNat < 16,
      t.env.txStream = s.env.txStream ++ [s.blk.txbuf[s.blk.txpos.toNat]]) ∧
    (¬ (s.env.inputs.head? = some .txAcc ∧ s.blk.phase = .sending) → t.env.txStream = s.env.txStream)

/-! ## Encoding -/

/-- Decoding an encoded well-formed instruction gives it back, with every operand at every value. -/
def Obligations.DecodeOfEncode : Prop :=
  ∀ (P : Params) (i : Instr), i.wf P = true → decode (encode i) = .ok i

/-- Encoding what a code decodes to gives the code back: no bit of a command word or a frame is dropped. -/
def Obligations.EncodeOfDecode : Prop :=
  ∀ (c : Code) (i : Instr), decode c = .ok i → encode i = c

/-- Words and frames written out from the spec decode to the instructions they stand for (30_encoding.md R83, R87, R90). -/
def Obligations.DecodesSpecWords : Prop :=
  decode (.cmd 0x0000FF02#32) = .ok (.ckadd 0xFF#8 0x0000#16) ∧
  decode (.cmd 0x03F50111#32) = .ok (.ldcmd 0x01#8 0x03F5#16) ∧
  decode (.cmd 0x00000E20#32) = .ok (.recv 0x0E#8 0x0000#16) ∧
  decode (.cmd 0x00000030#32) = .ok (.xchg 0x00#8 0x0000#16) ∧
  decode (.cmd 0x34561205#32) = .ok (.illegal 0x05#8 0x12#8 0x3456#16) ∧
  decode (.wire [0x42#8, 0x4D#8, 0xA0#8, 0x00#8, 0x03#8, 0x00#8, 0x00#8, 0x01#8, 0x32#8]) =
    .ok (.frameReadConc 0x0000#16 0x0132#16) ∧
  decode (.wire [0x42#8, 0x4D#8, 0xA0#8, 0x00#8, 0x01#8, 0x00#8, 0x02#8, 0x03#8, 0xF5#8, 0x02#8, 0x2A#8]) =
    .ok (.frameSetPressure 0x0002#16 0x03F5#16 0x022A#16)

/-- Ignored fields (30_encoding.md R86): two command words with the same OP, and the same operands that OP reads (R83), run alike. -/
def Obligations.IgnoredFieldsDoNotMatter : Prop :=
  ∀ (v w : Word) (s : State), fieldOp v = fieldOp w →
    (fieldOp v ∈ [0x02#8, 0x03#8, 0x04#8, 0x10#8, 0x11#8, 0x20#8, 0x21#8, 0x22#8, 0x23#8, 0x24#8, 0x25#8] →
      fieldA v = fieldA w) →
    (fieldOp v = 0x11#8 → fieldA v ∈ [0x01#8, 0x04#8] → fieldImm v = fieldImm w) →
    exec (decodeCmd v) s = exec (decodeCmd w) s

/-- A step runs the decoded instruction, after its input is taken: a word the host writes to CMD (30_encoding.md R84), and the command
frame in flight at a TXACC input (that a frame in flight is run as an instruction is the model's choice, log entry 7; the step is the
event of 41_framer.md R124 either way). -/
def Obligations.StepRunsDecodedInstruction : Prop :=
  ∀ (s : State) (rest : List Input) (i : Instr),
    (∀ v : Word, s.env.inputs = .hostWr s.params.base .word v :: rest → decode (.cmd v) = .ok i →
      step s = exec i { s with env := { s.env with inputs := rest } }) ∧
    (s.env.inputs = .txAcc :: rest → s.blk.phase = .sending →
      decode (.wire (s.blk.txbuf.toList.take s.blk.txlen.toNat)) = .ok i →
      step s = exec i { s with env := { s.env with inputs := rest } })
end

