-- ==== Sys2Proof/Laws/Bytes.lean ====
section
/-! SUPPORT. Laws of the byte-order helpers and of the checksum (00_scope.md R8, R11; 40_checksum.md R100). -/

namespace Sys2Proof

/-- Appending a byte below a bit string multiplies by 256 and adds. -/
theorem append_byte_toNat {n : Nat} (v : BitVec n) (x : Byte) : (v ++ x).toNat = v.toNat * 256 + x.toNat := by
  rw [BitVec.toNat_append, ← Nat.shiftLeft_add_eq_or_of_lt x.isLt, Nat.shiftLeft_eq]

theorem be16_toNat (x y : Byte) : (be16 x y).toNat = x.toNat * 256 + y.toNat := append_byte_toNat x y

theorem hi_toNat (v : Half) : (hi v).toNat = v.toNat / 256 := by
  have := v.isLt
  simp only [hi, BitVec.extractLsb'_toNat, Nat.shiftRight_eq_div_pow]
  omega

theorem lo_toNat (v : Half) : (lo v).toNat = v.toNat % 256 := by
  simp only [lo, BitVec.extractLsb'_toNat, Nat.shiftRight_zero]

@[simp] theorem hi_be16 (x y : Byte) : hi (be16 x y) = x := by
  have := y.isLt
  apply BitVec.eq_of_toNat_eq
  rw [hi_toNat, be16_toNat]
  omega

@[simp] theorem lo_be16 (x y : Byte) : lo (be16 x y) = y := by
  have := y.isLt
  apply BitVec.eq_of_toNat_eq
  rw [lo_toNat, be16_toNat]
  omega

@[simp] theorem be16_hi_lo (v : Half) : be16 (hi v) (lo v) = v := by
  apply BitVec.eq_of_toNat_eq
  rw [be16_toNat, hi_toNat, lo_toNat]
  omega

theorem be32_toNat (x y z w : Byte) :
    (be32 x y z w).toNat = x.toNat * 2 ^ 24 + y.toNat * 2 ^ 16 + z.toNat * 2 ^ 8 + w.toNat := by
  refine (append_byte_toNat (x ++ y ++ z) w).trans ?_
  rw [append_byte_toNat (x ++ y) z, append_byte_toNat x y]
  ring

@[simp] theorem sum16_nil : sum16 [] = 0#16 := rfl

theorem sum16_toNat (bs : List Byte) : (sum16 bs).toNat = (bs.map BitVec.toNat).sum % 65536 := by
  simp [sum16]

theorem sum16_cons (x : Byte) (bs : List Byte) : sum16 (x :: bs) = x.setWidth 16 + sum16 bs := by
  apply BitVec.eq_of_toNat_eq
  simp [sum16_toNat]

/-- The big-endian pair of a sum is the sum, and no other pair is. -/
theorem hi_lo_eq_iff (v : Half) (x y : Byte) : (hi v = x ∧ lo v = y) ↔ be16 x y = v := by
  constructor
  · rintro ⟨rfl, rfl⟩; simp
  · rintro rfl; simp

end Sys2Proof
end

