-- ==== Sys2Proof/Laws/State.lean ====
section
/-! SUPPORT. What each named update of the block and of the state does to each field. -/

namespace Sys2Proof.Machine

variable (b : Block) (s : State)

@[simp] theorem Block.beginOp_phase : b.beginOp.phase = b.phase := rfl
@[simp] theorem Block.beginOp_chain : b.beginOp.chain = b.chain := rfl
@[simp] theorem Block.beginOp_txpos : b.beginOp.txpos = b.txpos := rfl
@[simp] theorem Block.beginOp_rxcnt : b.beginOp.rxcnt = b.rxcnt := rfl
@[simp] theorem Block.beginOp_acc : b.beginOp.acc = b.acc := rfl
@[simp] theorem Block.beginOp_result : b.beginOp.result = b.result := rfl
@[simp] theorem Block.beginOp_conc : b.beginOp.conc = b.conc := rfl
@[simp] theorem Block.beginOp_txbuf : b.beginOp.txbuf = b.txbuf := rfl
@[simp] theorem Block.beginOp_rxbuf : b.beginOp.rxbuf = b.rxbuf := rfl
@[simp] theorem Block.beginOp_shadow : b.beginOp.shadow = b.shadow := rfl
@[simp] theorem Block.beginOp_txlen : b.beginOp.txlen = b.txlen := rfl
@[simp] theorem Block.beginOp_rxlen : b.beginOp.rxlen = b.rxlen := rfl
@[simp] theorem Block.beginOp_kind : b.beginOp.kind = b.kind := rfl
@[simp] theorem Block.beginOp_kvalid : b.beginOp.kvalid = b.kvalid := rfl
@[simp] theorem Block.beginOp_done : b.beginOp.done = false := rfl
@[simp] theorem Block.beginOp_ok : b.beginOp.ok = false := rfl
@[simp] theorem Block.beginOp_ckok : b.beginOp.ckok = b.ckok := rfl
@[simp] theorem Block.beginOp_flag : b.beginOp.flag = false := rfl
@[simp] theorem Block.beginOp_err : b.beginOp.err = .none := rfl
@[simp] theorem Block.beginOp_warm : b.beginOp.warm = b.warm := rfl
@[simp] theorem Block.beginOp_drop : b.beginOp.drop = b.drop := rfl

@[simp] theorem Block.complete_phase (o : Bool) (e : ErrCode) : (b.complete o e).phase = .idle := rfl
@[simp] theorem Block.complete_chain (o : Bool) (e : ErrCode) : (b.complete o e).chain = false := rfl
@[simp] theorem Block.complete_txpos (o : Bool) (e : ErrCode) : (b.complete o e).txpos = b.txpos := rfl
@[simp] theorem Block.complete_rxcnt (o : Bool) (e : ErrCode) : (b.complete o e).rxcnt = b.rxcnt := rfl
@[simp] theorem Block.complete_acc (o : Bool) (e : ErrCode) : (b.complete o e).acc = b.acc := rfl
@[simp] theorem Block.complete_result (o : Bool) (e : ErrCode) : (b.complete o e).result = b.result := rfl
@[simp] theorem Block.complete_conc (o : Bool) (e : ErrCode) : (b.complete o e).conc = b.conc := rfl
@[simp] theorem Block.complete_txbuf (o : Bool) (e : ErrCode) : (b.complete o e).txbuf = b.txbuf := rfl
@[simp] theorem Block.complete_rxbuf (o : Bool) (e : ErrCode) : (b.complete o e).rxbuf = b.rxbuf := rfl
@[simp] theorem Block.complete_shadow (o : Bool) (e : ErrCode) : (b.complete o e).shadow = b.shadow := rfl
@[simp] theorem Block.complete_txlen (o : Bool) (e : ErrCode) : (b.complete o e).txlen = b.txlen := rfl
@[simp] theorem Block.complete_rxlen (o : Bool) (e : ErrCode) : (b.complete o e).rxlen = b.rxlen := rfl
@[simp] theorem Block.complete_kind (o : Bool) (e : ErrCode) : (b.complete o e).kind = b.kind := rfl
@[simp] theorem Block.complete_kvalid (o : Bool) (e : ErrCode) : (b.complete o e).kvalid = b.kvalid := rfl
@[simp] theorem Block.complete_done (o : Bool) (e : ErrCode) : (b.complete o e).done = true := rfl
@[simp] theorem Block.complete_ok (o : Bool) (e : ErrCode) : (b.complete o e).ok = o := rfl
@[simp] theorem Block.complete_ckok (o : Bool) (e : ErrCode) : (b.complete o e).ckok = b.ckok := rfl
@[simp] theorem Block.complete_flag (o : Bool) (e : ErrCode) : (b.complete o e).flag = b.flag := rfl
@[simp] theorem Block.complete_err (o : Bool) (e : ErrCode) : (b.complete o e).err = e := rfl
@[simp] theorem Block.complete_warm (o : Bool) (e : ErrCode) : (b.complete o e).warm = b.warm := rfl
@[simp] theorem Block.complete_drop (o : Bool) (e : ErrCode) : (b.complete o e).drop = b.drop := rfl

@[simp] theorem Block.raise_phase (e : ErrCode) : (b.raise e).phase = .idle := rfl
@[simp] theorem Block.raise_chain (e : ErrCode) : (b.raise e).chain = false := rfl
@[simp] theorem Block.raise_txpos (e : ErrCode) : (b.raise e).txpos = b.txpos := rfl
@[simp] theorem Block.raise_rxcnt (e : ErrCode) : (b.raise e).rxcnt = b.rxcnt := rfl
@[simp] theorem Block.raise_acc (e : ErrCode) : (b.raise e).acc = b.acc := rfl
@[simp] theorem Block.raise_result (e : ErrCode) : (b.raise e).result = b.result := rfl
@[simp] theorem Block.raise_conc (e : ErrCode) : (b.raise e).conc = b.conc := rfl
@[simp] theorem Block.raise_txbuf (e : ErrCode) : (b.raise e).txbuf = b.txbuf := rfl
@[simp] theorem Block.raise_rxbuf (e : ErrCode) : (b.raise e).rxbuf = b.rxbuf := rfl
@[simp] theorem Block.raise_shadow (e : ErrCode) : (b.raise e).shadow = b.shadow := rfl
@[simp] theorem Block.raise_txlen (e : ErrCode) : (b.raise e).txlen = b.txlen := rfl
@[simp] theorem Block.raise_rxlen (e : ErrCode) : (b.raise e).rxlen = b.rxlen := rfl
@[simp] theorem Block.raise_kind (e : ErrCode) : (b.raise e).kind = b.kind := rfl
@[simp] theorem Block.raise_kvalid (e : ErrCode) : (b.raise e).kvalid = b.kvalid := rfl
@[simp] theorem Block.raise_done (e : ErrCode) : (b.raise e).done = true := rfl
@[simp] theorem Block.raise_ok (e : ErrCode) : (b.raise e).ok = false := rfl
@[simp] theorem Block.raise_ckok (e : ErrCode) : (b.raise e).ckok = b.ckok := rfl
@[simp] theorem Block.raise_flag (e : ErrCode) : (b.raise e).flag = b.flag := rfl
@[simp] theorem Block.raise_err (e : ErrCode) : (b.raise e).err = e := rfl
@[simp] theorem Block.raise_warm (e : ErrCode) : (b.raise e).warm = b.warm := rfl
@[simp] theorem Block.raise_drop (e : ErrCode) : (b.raise e).drop = b.drop := rfl

@[simp] theorem Block.clearCkok_phase : b.clearCkok.phase = b.phase := rfl
@[simp] theorem Block.clearCkok_chain : b.clearCkok.chain = b.chain := rfl
@[simp] theorem Block.clearCkok_txpos : b.clearCkok.txpos = b.txpos := rfl
@[simp] theorem Block.clearCkok_rxcnt : b.clearCkok.rxcnt = b.rxcnt := rfl
@[simp] theorem Block.clearCkok_acc : b.clearCkok.acc = b.acc := rfl
@[simp] theorem Block.clearCkok_result : b.clearCkok.result = b.result := rfl
@[simp] theorem Block.clearCkok_conc : b.clearCkok.conc = b.conc := rfl
@[simp] theorem Block.clearCkok_txbuf : b.clearCkok.txbuf = b.txbuf := rfl
@[simp] theorem Block.clearCkok_rxbuf : b.clearCkok.rxbuf = b.rxbuf := rfl
@[simp] theorem Block.clearCkok_shadow : b.clearCkok.shadow = b.shadow := rfl
@[simp] theorem Block.clearCkok_txlen : b.clearCkok.txlen = b.txlen := rfl
@[simp] theorem Block.clearCkok_rxlen : b.clearCkok.rxlen = b.rxlen := rfl
@[simp] theorem Block.clearCkok_kind : b.clearCkok.kind = b.kind := rfl
@[simp] theorem Block.clearCkok_kvalid : b.clearCkok.kvalid = b.kvalid := rfl
@[simp] theorem Block.clearCkok_done : b.clearCkok.done = b.done := rfl
@[simp] theorem Block.clearCkok_ok : b.clearCkok.ok = b.ok := rfl
@[simp] theorem Block.clearCkok_ckok : b.clearCkok.ckok = false := rfl
@[simp] theorem Block.clearCkok_flag : b.clearCkok.flag = b.flag := rfl
@[simp] theorem Block.clearCkok_err : b.clearCkok.err = b.err := rfl
@[simp] theorem Block.clearCkok_warm : b.clearCkok.warm = b.warm := rfl
@[simp] theorem Block.clearCkok_drop : b.clearCkok.drop = b.drop := rfl

@[simp] theorem Block.startRx_phase (L : FrameLen) : (b.startRx L).phase = .receiving := rfl
@[simp] theorem Block.startRx_chain (L : FrameLen) : (b.startRx L).chain = b.chain := rfl
@[simp] theorem Block.startRx_txpos (L : FrameLen) : (b.startRx L).txpos = b.txpos := rfl
@[simp] theorem Block.startRx_rxcnt (L : FrameLen) : (b.startRx L).rxcnt = 0#5 := rfl
@[simp] theorem Block.startRx_acc (L : FrameLen) : (b.startRx L).acc = b.acc := rfl
@[simp] theorem Block.startRx_result (L : FrameLen) : (b.startRx L).result = b.result := rfl
@[simp] theorem Block.startRx_conc (L : FrameLen) : (b.startRx L).conc = b.conc := rfl
@[simp] theorem Block.startRx_txbuf (L : FrameLen) : (b.startRx L).txbuf = b.txbuf := rfl
@[simp] theorem Block.startRx_rxbuf (L : FrameLen) : (b.startRx L).rxbuf = b.rxbuf := rfl
@[simp] theorem Block.startRx_shadow (L : FrameLen) : (b.startRx L).shadow = b.shadow := rfl
@[simp] theorem Block.startRx_txlen (L : FrameLen) : (b.startRx L).txlen = b.txlen := rfl
@[simp] theorem Block.startRx_rxlen (L : FrameLen) : (b.startRx L).rxlen = BitVec.ofNat 5 L.val := rfl
@[simp] theorem Block.startRx_kind (L : FrameLen) : (b.startRx L).kind = b.kind := rfl
@[simp] theorem Block.startRx_kvalid (L : FrameLen) : (b.startRx L).kvalid = b.kvalid := rfl
@[simp] theorem Block.startRx_done (L : FrameLen) : (b.startRx L).done = b.done := rfl
@[simp] theorem Block.startRx_ok (L : FrameLen) : (b.startRx L).ok = b.ok := rfl
@[simp] theorem Block.startRx_ckok (L : FrameLen) : (b.startRx L).ckok = b.ckok := rfl
@[simp] theorem Block.startRx_flag (L : FrameLen) : (b.startRx L).flag = b.flag := rfl
@[simp] theorem Block.startRx_err (L : FrameLen) : (b.startRx L).err = b.err := rfl
@[simp] theorem Block.startRx_warm (L : FrameLen) : (b.startRx L).warm = b.warm := rfl
@[simp] theorem Block.startRx_drop (L : FrameLen) : (b.startRx L).drop = b.drop := rfl

@[simp] theorem Block.finished_phase (o : Bool) (e : ErrCode) : (b.finished o e).phase = .idle := rfl
@[simp] theorem Block.finished_chain (o : Bool) (e : ErrCode) : (b.finished o e).chain = false := rfl
@[simp] theorem Block.finished_txpos (o : Bool) (e : ErrCode) : (b.finished o e).txpos = b.txpos := rfl
@[simp] theorem Block.finished_rxcnt (o : Bool) (e : ErrCode) : (b.finished o e).rxcnt = b.rxcnt := rfl
@[simp] theorem Block.finished_acc (o : Bool) (e : ErrCode) : (b.finished o e).acc = b.acc := rfl
@[simp] theorem Block.finished_result (o : Bool) (e : ErrCode) : (b.finished o e).result = b.result := rfl
@[simp] theorem Block.finished_conc (o : Bool) (e : ErrCode) : (b.finished o e).conc = b.conc := rfl
@[simp] theorem Block.finished_txbuf (o : Bool) (e : ErrCode) : (b.finished o e).txbuf = b.txbuf := rfl
@[simp] theorem Block.finished_rxbuf (o : Bool) (e : ErrCode) : (b.finished o e).rxbuf = b.rxbuf := rfl
@[simp] theorem Block.finished_shadow (o : Bool) (e : ErrCode) : (b.finished o e).shadow = b.shadow := rfl
@[simp] theorem Block.finished_txlen (o : Bool) (e : ErrCode) : (b.finished o e).txlen = b.txlen := rfl
@[simp] theorem Block.finished_rxlen (o : Bool) (e : ErrCode) : (b.finished o e).rxlen = b.rxlen := rfl
@[simp] theorem Block.finished_kind (o : Bool) (e : ErrCode) : (b.finished o e).kind = b.kind := rfl
@[simp] theorem Block.finished_kvalid (o : Bool) (e : ErrCode) : (b.finished o e).kvalid = b.kvalid := rfl
@[simp] theorem Block.finished_done (o : Bool) (e : ErrCode) : (b.finished o e).done = true := rfl
@[simp] theorem Block.finished_ok (o : Bool) (e : ErrCode) : (b.finished o e).ok = o := rfl
@[simp] theorem Block.finished_ckok (o : Bool) (e : ErrCode) : (b.finished o e).ckok = b.ckok := rfl
@[simp] theorem Block.finished_flag (o : Bool) (e : ErrCode) : (b.finished o e).flag = false := rfl
@[simp] theorem Block.finished_err (o : Bool) (e : ErrCode) : (b.finished o e).err = e := rfl
@[simp] theorem Block.finished_warm (o : Bool) (e : ErrCode) : (b.finished o e).warm = b.warm := rfl
@[simp] theorem Block.finished_drop (o : Bool) (e : ErrCode) : (b.finished o e).drop = b.drop := rfl

@[simp] theorem Block.started_phase : b.started.phase = b.phase := rfl
@[simp] theorem Block.started_chain : b.started.chain = b.chain := rfl
@[simp] theorem Block.started_txpos : b.started.txpos = b.txpos := rfl
@[simp] theorem Block.started_rxcnt : b.started.rxcnt = b.rxcnt := rfl
@[simp] theorem Block.started_acc : b.started.acc = b.acc := rfl
@[simp] theorem Block.started_result : b.started.result = b.result := rfl
@[simp] theorem Block.started_conc : b.started.conc = b.conc := rfl
@[simp] theorem Block.started_txbuf : b.started.txbuf = b.txbuf := rfl
@[simp] theorem Block.started_rxbuf : b.started.rxbuf = b.rxbuf := rfl
@[simp] theorem Block.started_shadow : b.started.shadow = b.shadow := rfl
@[simp] theorem Block.started_txlen : b.started.txlen = b.txlen := rfl
@[simp] theorem Block.started_rxlen : b.started.rxlen = b.rxlen := rfl
@[simp] theorem Block.started_kind : b.started.kind = b.kind := rfl
@[simp] theorem Block.started_kvalid : b.started.kvalid = b.kvalid := rfl
@[simp] theorem Block.started_done : b.started.done = false := rfl
@[simp] theorem Block.started_ok : b.started.ok = false := rfl
@[simp] theorem Block.started_ckok : b.started.ckok = b.ckok := rfl
@[simp] theorem Block.started_flag : b.started.flag = false := rfl
@[simp] theorem Block.started_err : b.started.err = .none := rfl
@[simp] theorem Block.started_warm : b.started.warm = b.warm := rfl
@[simp] theorem Block.started_drop : b.started.drop = b.drop := rfl

@[simp] theorem Block.inject_phase (L : FrameLen) : (b.inject L).phase = b.phase := rfl
@[simp] theorem Block.inject_chain (L : FrameLen) : (b.inject L).chain = b.chain := rfl
@[simp] theorem Block.inject_txpos (L : FrameLen) : (b.inject L).txpos = b.txpos := rfl
@[simp] theorem Block.inject_rxcnt (L : FrameLen) : (b.inject L).rxcnt = b.rxcnt := rfl
@[simp] theorem Block.inject_acc (L : FrameLen) : (b.inject L).acc = b.txbuf.sum (L.val - 2) := rfl
@[simp] theorem Block.inject_result (L : FrameLen) : (b.inject L).result = b.result := rfl
@[simp] theorem Block.inject_conc (L : FrameLen) : (b.inject L).conc = b.conc := rfl
@[simp] theorem Block.inject_rxbuf (L : FrameLen) : (b.inject L).rxbuf = b.rxbuf := rfl
@[simp] theorem Block.inject_shadow (L : FrameLen) : (b.inject L).shadow = b.shadow := rfl
@[simp] theorem Block.inject_txlen (L : FrameLen) : (b.inject L).txlen = b.txlen := rfl
@[simp] theorem Block.inject_rxlen (L : FrameLen) : (b.inject L).rxlen = b.rxlen := rfl
@[simp] theorem Block.inject_kind (L : FrameLen) : (b.inject L).kind = b.kind := rfl
@[simp] theorem Block.inject_kvalid (L : FrameLen) : (b.inject L).kvalid = b.kvalid := rfl
@[simp] theorem Block.inject_done (L : FrameLen) : (b.inject L).done = b.done := rfl
@[simp] theorem Block.inject_ok (L : FrameLen) : (b.inject L).ok = b.ok := rfl
@[simp] theorem Block.inject_ckok (L : FrameLen) : (b.inject L).ckok = b.ckok := rfl
@[simp] theorem Block.inject_flag (L : FrameLen) : (b.inject L).flag = b.flag := rfl
@[simp] theorem Block.inject_err (L : FrameLen) : (b.inject L).err = b.err := rfl
@[simp] theorem Block.inject_warm (L : FrameLen) : (b.inject L).warm = b.warm := rfl
@[simp] theorem Block.inject_drop (L : FrameLen) : (b.inject L).drop = b.drop := rfl

@[simp] theorem State.dropWrite_params : s.dropWrite.params = s.params := rfl
@[simp] theorem State.dropWrite_env : s.dropWrite.env = s.env := rfl
@[simp] theorem State.pop_params : s.pop.params = s.params := rfl
@[simp] theorem State.pop_blk : s.pop.blk = s.blk := rfl
@[simp] theorem State.dropWrite_blk : s.dropWrite.blk = { s.blk with drop := true } := rfl
@[simp] theorem State.pop_env : s.pop.env = { s.env with inputs := s.env.inputs.tail } := rfl
@[simp] theorem State.push_params (x : Input) : (s.push x).params = s.params := rfl
@[simp] theorem State.push_blk (x : Input) : (s.push x).blk = s.blk := rfl
@[simp] theorem State.push_env (x : Input) : (s.push x).env = { s.env with inputs := x :: s.env.inputs } := rfl
@[simp] theorem State.push_pop (x : Input) : (s.push x).pop = s := rfl
@[simp] theorem State.withBlk_params : (s.withBlk b).params = s.params := rfl
@[simp] theorem State.withBlk_blk : (s.withBlk b).blk = b := rfl
@[simp] theorem State.withBlk_env : (s.withBlk b).env = s.env := rfl

end Sys2Proof.Machine
end

