-- ==== Sys2Proof/Laws/Buf.lean ====
section
/-! SUPPORT. What writing a byte sequence into a buffer, summing a prefix, inject and verify do (41_framer.md R120, 42_parser.md R140,
40_checksum.md R100). -/

namespace Sys2Proof.Machine

/-- A write within bounds is the plain write of one byte. -/
theorem Buf.setIfInBounds_eq_set (B : Buf) (i : Nat) (x : Byte) (h : i < 16) : B.setIfInBounds i x = B.set i x h := by
  apply Vector.ext
  intro j hj
  simp [Vector.getElem_setIfInBounds, Vector.getElem_set]

/-- The bytes of a buffer after a sequence was written from offset `i` on. -/
theorem Buf.writeAt_getElem (bs : List Byte) : ∀ (B : Buf) (i j : Nat) (hj : j < 16),
    (B.writeAt i bs)[j] = if h : i ≤ j ∧ j < i + bs.length then bs[j - i]'(by omega) else B[j] := by
  induction bs with
  | nil => intro B i j hj; simp only [Buf.writeAt, List.length_nil]; rw [dif_neg (by omega)]
  | cons x xs ih =>
    intro B i j hj
    simp only [Buf.writeAt, ih, List.length_cons]
    rcases lt_trichotomy j i with h | h | h
    · rw [dif_neg (by omega), dif_neg (by omega), Vector.getElem_setIfInBounds_ne (h := by omega)]
    · subst h
      rw [dif_neg (by omega), dif_pos (by omega)]
      simp
    · by_cases hlt : j < i + 1 + xs.length
      · rw [dif_pos (by omega), dif_pos (by omega)]
        have : j - i = (j - (i + 1)) + 1 := by omega
        simp [this]
      · rw [dif_neg (by omega), dif_neg (by omega), Vector.getElem_setIfInBounds_ne (h := by omega)]

/-- A sequence written at offset 0 stands before what the buffer held behind it. -/
theorem Buf.writeAt_zero_toList (B : Buf) (bs : List Byte) (h : bs.length ≤ 16) :
    (B.writeAt 0 bs).toList = bs ++ B.toList.drop bs.length := by
  apply List.ext_getElem
  · simp; omega
  · intro j h1 h2
    have hj : j < 16 := by simpa using h1
    rw [Vector.getElem_toList, Buf.writeAt_getElem _ _ _ _ hj, List.getElem_append]
    by_cases hlt : j < bs.length
    · simp [hlt]
    · rw [dif_neg (by omega), dif_neg hlt]
      simp only [List.getElem_drop, Vector.getElem_toList]
      congr 1
      omega

@[simp] theorem Buf.first_length (B : Buf) (n : Nat) : (B.first n).length = min n 16 := by simp [Buf.first]

/-- sum16 of a prefix is its total modulo 65536 (R100). -/
theorem Buf.sum_eq_total (B : Buf) (n : Nat) : B.sum n = BitVec.ofNat 16 (B.total n % 65536) := by
  apply BitVec.eq_of_toNat_eq
  simp [Buf.sum, sum16_toNat, Buf.total, Buf.first]

theorem Buf.sum_toNat (B : Buf) (n : Nat) : (B.sum n).toNat = B.total n % 65536 := sum16_toNat _

/-- verify(B, L) matches exactly when the last two bytes hold the sum, high byte first (R140). -/
theorem Buf.verifies_iff (B : Buf) (L : FrameLen) : B.verifies L = true ↔ B.goodFrame L := by
  have := L.property
  simp only [Buf.verifies, Bool.and_eq_true, beq_iff_eq, hi_lo_eq_iff, Buf.goodFrame]
  rw [← be16_toNat, ← Buf.sum_toNat, BitVec.toNat_inj]

theorem Buf.verifies_eq_false_iff (B : Buf) (L : FrameLen) : B.verifies L = false ↔ ¬ B.goodFrame L := by
  rw [← Buf.verifies_iff, Bool.not_eq_true]

/-- Two buffers with the same first `n` bytes have the same prefix sum. -/
theorem Buf.total_congr (B C : Buf) (n : Nat) (h : ∀ i (_ : i < 16), i < n → B[i] = C[i]) : B.total n = C.total n := by
  have : B.toList.take n = C.toList.take n := by
    apply List.ext_getElem
    · simp
    · intro i h1 h2
      simp only [List.length_take, Vector.length_toList] at h1
      simp only [List.getElem_take, Vector.getElem_toList]
      exact h i (by omega) (by omega)
  simp [Buf.total, this]

/-- inject leaves every byte but the last two of the frame (R120). -/
theorem Block.inject_getElem_other (b : Block) (L : FrameLen) (i : Nat) (hi : i < 16) (h2 : i ≠ L.val - 2) (h1 : i ≠ L.val - 1) :
    (b.inject L).txbuf[i] = b.txbuf[i] := by
  simp only [Block.inject]
  rw [Vector.getElem_setIfInBounds_ne (h := by omega), Vector.getElem_setIfInBounds_ne (h := by omega)]

/-- inject leaves the sum of the bytes before the checksum (R120). -/
theorem Block.inject_total (b : Block) (L : FrameLen) : (b.inject L).txbuf.total (L.val - 2) = b.txbuf.total (L.val - 2) := by
  have := L.property
  exact Buf.total_congr _ _ _ fun i hi h => b.inject_getElem_other L i hi (by omega) (by omega)

/-- After inject the frame verifies (R120, R140). -/
theorem Block.inject_goodFrame (b : Block) (L : FrameLen) : (b.inject L).txbuf.goodFrame L := by
  have hL := L.property
  unfold Buf.goodFrame
  rw [Block.inject_total]
  have h2 : (b.inject L).txbuf[L.val - 2] = hi (b.txbuf.sum (L.val - 2)) := by
    simp only [Block.inject]
    rw [Vector.getElem_setIfInBounds_ne (h := by omega)]
    simp
  have h1 : (b.inject L).txbuf[L.val - 1] = lo (b.txbuf.sum (L.val - 2)) := by
    simp only [Block.inject]
    simp
  rw [h2, h1, ← be16_toNat, be16_hi_lo, Buf.sum_toNat]

/-- The sum of a prefix that was just written is the sum of what was written. -/
theorem Buf.sum_writeAt (B : Buf) (bs : List Byte) (h : bs.length ≤ 16) : (B.writeAt 0 bs).sum bs.length = sum16 bs := by
  unfold Buf.sum Buf.first
  rw [Buf.writeAt_zero_toList _ _ h, List.take_left' rfl]

/-- inject over freshly written bytes that leave just the checksum to fill writes the whole frame (41_framer.md R120, R122). -/
theorem Block.inject_writeAt (b : Block) (L : FrameLen) (bs : List Byte) (h : bs.length + 2 = L.val) :
    ({ b with txbuf := b.txbuf.writeAt 0 bs }.inject L).txbuf
      = b.txbuf.writeAt 0 (bs ++ [hi (sum16 bs), lo (sum16 bs)]) := by
  have hL := L.property
  have h2 : L.val - 2 = bs.length := by omega
  have h1 : L.val - 1 = bs.length + 1 := by omega
  have hs := Buf.sum_writeAt b.txbuf bs (by omega)
  simp only [Block.inject, h2, h1, hs]
  apply Vector.ext
  intro i hi
  rw [Vector.getElem_setIfInBounds, Vector.getElem_setIfInBounds, Buf.writeAt_getElem _ _ _ _ hi, Buf.writeAt_getElem _ _ _ _ hi]
  simp only [List.length_append, List.length_cons, List.length_nil, Nat.sub_zero, Nat.zero_add]
  rcases lt_trichotomy i bs.length with hlt | heq | hgt
  · rw [if_neg (by omega), if_neg (by omega), dif_pos (by omega), dif_pos (by omega), List.getElem_append_left (by omega)]
  · subst heq
    rw [if_neg (by omega), if_pos rfl, dif_pos (by omega), List.getElem_append_right (by omega)]
    simp
  · by_cases hi1 : bs.length + 1 = i
    · subst hi1
      rw [if_pos rfl, dif_pos (by omega), List.getElem_append_right (by omega)]
      simp
    · rw [if_neg hi1, if_neg (by omega), dif_neg (by omega), dif_neg (by omega)]

end Sys2Proof.Machine
end

