-- ==== Sys2Proof/Laws/Decode.lean ====
section
/-! SUPPORT. Laws of the command word's fields and of the kind table (30_encoding.md R80, 43_exchange_and_commands.md R170). -/

namespace Sys2Proof

theorem cmdWord_toNat (op a : Byte) (imm : Half) :
    (cmdWord op a imm).toNat = imm.toNat * 65536 + a.toNat * 256 + op.toNat := by
  refine (append_byte_toNat (imm ++ a) op).trans ?_
  rw [append_byte_toNat imm a]
  ring

@[simp] theorem fieldOp_cmdWord (op a : Byte) (imm : Half) : fieldOp (cmdWord op a imm) = op := by
  have := op.isLt
  apply BitVec.eq_of_toNat_eq
  simp only [fieldOp, BitVec.extractLsb'_toNat, cmdWord_toNat, Nat.shiftRight_zero]
  omega

@[simp] theorem fieldA_cmdWord (op a : Byte) (imm : Half) : fieldA (cmdWord op a imm) = a := by
  have := op.isLt
  have := a.isLt
  apply BitVec.eq_of_toNat_eq
  simp only [fieldA, BitVec.extractLsb'_toNat, cmdWord_toNat, Nat.shiftRight_eq_div_pow]
  omega

@[simp] theorem fieldImm_cmdWord (op a : Byte) (imm : Half) : fieldImm (cmdWord op a imm) = imm := by
  have := op.isLt
  have := a.isLt
  have := imm.isLt
  apply BitVec.eq_of_toNat_eq
  simp only [fieldImm, BitVec.extractLsb'_toNat, cmdWord_toNat, Nat.shiftRight_eq_div_pow]
  omega

@[simp] theorem cmdWord_fields (v : Word) : cmdWord (fieldOp v) (fieldA v) (fieldImm v) = v := by
  have := v.isLt
  apply BitVec.eq_of_toNat_eq
  simp only [cmdWord_toNat, fieldOp, fieldA, fieldImm, BitVec.extractLsb'_toNat, Nat.shiftRight_eq_div_pow]
  omega

/-! The fields of a command word written out as a concatenation (30_encoding.md R80). -/

@[simp] theorem fieldOp_append (op a : Byte) (imm : Half) : fieldOp (imm ++ a ++ op) = op := fieldOp_cmdWord op a imm
@[simp] theorem fieldA_append (op a : Byte) (imm : Half) : fieldA (imm ++ a ++ op) = a := fieldA_cmdWord op a imm
@[simp] theorem fieldImm_append (op a : Byte) (imm : Half) : fieldImm (imm ++ a ++ op) = imm := fieldImm_cmdWord op a imm

@[simp] theorem Kind.ofByte?_code (k : Kind) : Kind.ofByte? k.code = some k := by cases k <;> rfl

/-- The byte that names a kind is its code (R170). -/
theorem Kind.ofByte?_eq_some {x : Byte} {k : Kind} (h : Kind.ofByte? x = some k) : x = k.code := by
  unfold Kind.ofByte? at h
  split at h
  · cases h; assumption
  split at h
  · cases h; assumption
  split at h
  · cases h; assumption
  split at h
  · cases h; assumption
  · cases h

theorem Kind.ofByte?_eq_none_iff (x : Byte) : Kind.ofByte? x = none ↔ x ∉ [0x01#8, 0x03#8, 0x04#8, 0x05#8] := by
  unfold Kind.ofByte?
  split_ifs <;> simp_all

end Sys2Proof
end

