-- ==== Sys2Proof/Laws/Ops.lean ====
section
/-! SUPPORT. What each shared operation can do, once: operand checks, issuing a word, the stream events, the fetch. -/

namespace Sys2Proof.Machine

/-! ## Operands -/

theorem frameLen?_eq_some {n : Nat} (h : 2 ≤ n ∧ n ≤ 16) : frameLen? n = some ⟨n, h⟩ := dif_pos h

theorem frameLen?_eq_none {n : Nat} (h : n < 2 ∨ 16 < n) : frameLen? n = none := dif_neg (by omega)

theorem frameLen?_val {n : Nat} {L : FrameLen} (h : frameLen? n = some L) : L.val = n := by
  unfold frameLen? at h
  split at h
  · cases h; rfl
  · cases h

theorem pos_ofNat_toNat (L : FrameLen) : (BitVec.ofNat 5 L.val).toNat = L.val := by
  have := L.property
  simp only [BitVec.toNat_ofNat]
  omega

/-- A template fills the command's frame but for the checksum (43_exchange_and_commands.md R171 to R174). -/
theorem template_length (P : Params) (k : Kind) (imm : Half) : (template P k imm).length + 2 = (cmdLen k).val := by
  cases k <;> rfl

/-- What LDCMD leaves in TXBUF: the template and its checksum, and behind it the old bytes (41_framer.md R122). -/
theorem Block.loadFrame_txbuf (P : Params) (b : Block) (k : Kind) (imm : Half) :
    (b.loadFrame P k imm).txbuf.toList =
      template P k imm ++ [hi (sum16 (template P k imm)), lo (sum16 (template P k imm))]
        ++ b.txbuf.toList.drop (cmdLen k).val := by
  have h := template_length P k imm
  have hL := (cmdLen k).property
  have e : (b.loadFrame P k imm).txbuf
      = ({ b with txbuf := b.txbuf.writeAt 0 (template P k imm) }.inject (cmdLen k)).txbuf := rfl
  rw [e, b.inject_writeAt (cmdLen k) (template P k imm) h, Buf.writeAt_zero_toList, ← h]
  · simp only [List.length_append, List.length_cons, List.length_nil, Nat.zero_add]
  · simp only [List.length_append, List.length_cons, List.length_nil]
    omega

theorem Block.loadFrame_acc (P : Params) (b : Block) (k : Kind) (imm : Half) :
    (b.loadFrame P k imm).acc = sum16 (template P k imm) := by
  have h := template_length P k imm
  have hL := (cmdLen k).property
  have e : (cmdLen k).val - 2 = (template P k imm).length := by omega
  simp only [Block.loadFrame, Block.inject_acc]
  rw [e, Buf.sum_writeAt _ _ (by omega)]

/-- The frame of a successful LDCMD: what it writes and what it leaves (41_framer.md R122). -/
theorem Block.loadFrame_eq (P : Params) (b : Block) (k : Kind) (imm : Half) :
    b.loadFrame P k imm =
      { b with
        txbuf := (b.loadFrame P k imm).txbuf, acc := (b.loadFrame P k imm).acc, txlen := BitVec.ofNat 5 (cmdLen k).val,
        txpos := 0#5, kind := k.code, kvalid := true } := by
  simp only [Block.loadFrame, Block.inject]

/-! ## Busy, issue -/

@[simp] theorem Block.busy_eq_false_iff (b : Block) : b.busy = false ↔ b.phase = .idle := by
  cases h : b.phase <;> simp [Block.busy, h]

@[simp] theorem Block.busy_eq_true_iff (b : Block) : b.busy = true ↔ b.phase ≠ .idle := by
  cases h : b.phase <;> simp [Block.busy, h]

/-- An idle block issues the operation (30_encoding.md R84). -/
theorem issue_idle {s : State} (op : Block → Block) (h : s.blk.phase = .idle) :
    issue s op = s.withBlk (op s.blk.beginOp) := by
  simp [issue, h, State.withBlk]

/-- A busy block drops the word (10_state.md R40). -/
theorem issue_busy {s : State} (op : Block → Block) (h : s.blk.phase ≠ .idle) : issue s op = s.dropWrite := by
  simp [issue, h]

theorem issueChecked_idle {s : State} (op : Block → Except Fault Block) (h : s.blk.phase = .idle) :
    issueChecked s op =
      match op s.blk.beginOp with
      | .ok b => .next (s.withBlk b)
      | .error f => .fault f := by
  have hb : s.blk.busy = false := by simp [h]
  rw [issueChecked, hb]
  cases op s.blk.beginOp <;> rfl

theorem issueChecked_busy {s : State} (op : Block → Except Fault Block) (h : s.blk.phase ≠ .idle) :
    issueChecked s op = .next s.dropWrite := by
  simp [issueChecked, h]

/-- complete after begin_op, whatever else was written in between: the form the statements use. -/
theorem Block.beginOp_eq_started (b : Block) : b.beginOp = b.started := rfl

/-! ## The stream events -/

/-- A position below 16 counts up without wrapping (10_state.md R27, R28). -/
theorem pos_succ_toNat (p : Pos) (h : p.toNat < 16) : (p + 1#5).toNat = p.toNat + 1 := by
  simp only [BitVec.toNat_add, BitVec.toNat_ofNat]
  omega

theorem pos_succ_eq (p : Pos) : p + 1#5 = BitVec.ofNat 5 (p.toNat + 1) := by
  apply BitVec.eq_of_toNat_eq
  simp

/-- Before the last byte TXACC only moves TXPOS (R124). -/
theorem Block.afterTx_more (b : Block) (h : b.txpos.toNat < 16) (hne : b.txpos.toNat + 1 ≠ b.txlen.toNat) :
    b.afterTx = .ok { b with txpos := b.txpos + 1#5 } := by
  unfold Block.afterTx
  rw [if_neg]
  rw [← BitVec.toNat_inj, pos_succ_toNat _ h]
  exact hne

/-- The last byte ends the send phase (R124). -/
theorem Block.afterTx_last (b : Block) (h : b.txpos.toNat < 16) (he : b.txpos.toNat + 1 = b.txlen.toNat) :
    b.afterTx = { b with txpos := b.txpos + 1#5 }.sendDone := by
  unfold Block.afterTx
  rw [if_pos]
  rw [← BitVec.toNat_inj, pos_succ_toNat _ h]
  exact he

/-- Before the last byte RXBYTE only writes SHADOW and moves RXCNT (42_parser.md R142). -/
theorem Block.afterRx_more (P : Params) (b : Block) (x : Byte) (h : b.rxcnt.toNat < 16)
    (hne : b.rxcnt.toNat + 1 ≠ b.rxlen.toNat) :
    b.afterRx P x = .ok { b with shadow := b.shadow.set b.rxcnt.toNat x, rxcnt := b.rxcnt + 1#5 } := by
  unfold Block.afterRx
  rw [if_pos h, Buf.setIfInBounds_eq_set _ _ _ h]
  dsimp only
  rw [if_neg]
  rw [← BitVec.toNat_inj, pos_succ_toNat _ h]
  exact hne

/-- The last byte completes the response (42_parser.md R142). -/
theorem Block.afterRx_last (P : Params) (b : Block) (x : Byte) (h : b.rxcnt.toNat < 16)
    (he : b.rxcnt.toNat + 1 = b.rxlen.toNat) :
    b.afterRx P x = { b with shadow := b.shadow.set b.rxcnt.toNat x, rxcnt := b.rxcnt + 1#5 }.rxComplete P := by
  unfold Block.afterRx
  rw [if_pos h, Buf.setIfInBounds_eq_set _ _ _ h]
  dsimp only
  rw [if_pos]
  rw [← BitVec.toNat_inj, pos_succ_toNat _ h]
  exact he

/-- A response that verifies is copied to RXBUF, then decoded in an exchange, else complete (R142). -/
theorem Block.rxComplete_verified (P : Params) (b : Block) {L : FrameLen} (hL : frameLen? b.rxlen.toNat = some L)
    (h : b.shadow.verifies L = true) :
    let c := { b with
      acc := b.shadow.sum (L.val - 2), ckok := true, rxbuf := b.rxbuf.writeAt 0 (b.shadow.first L.val) }
    b.rxComplete P =
      if b.chain then
        match Kind.ofByte? b.kind with
        | none => .error .commandKind
        | some k => .ok (c.decodeKind P k)
      else .ok (c.complete true .none) := by
  cases hc : b.chain <;> cases hk : Kind.ofByte? b.kind <;> simp [Block.rxComplete, hL, h, hc, hk]

/-- A response that does not verify leaves RXBUF and reports CHECKSUM (R142, 43_exchange_and_commands.md R182). -/
theorem Block.rxComplete_mismatch (P : Params) (b : Block) {L : FrameLen} (hL : frameLen? b.rxlen.toNat = some L)
    (h : b.shadow.verifies L = false) :
    let c := { b with acc := b.shadow.sum (L.val - 2), ckok := false }
    b.rxComplete P = .ok (if b.chain then c.failKind .checksum else c.complete false .checksum) := by
  simp only [Block.rxComplete, hL, h, Bool.false_eq_true, if_false]
  split <;> rfl

/-- TXACC in a send phase (41_framer.md R124). -/
theorem txAcc_sending {s : State} (h : s.blk.phase = .sending) (hp : s.blk.txpos.toNat < 16) :
    txAcc s =
      match s.blk.afterTx with
      | .error f => .fault f
      | .ok b => .next { s with
          blk := b, env := { s.env with txStream := s.env.txStream ++ [s.blk.txbuf[s.blk.txpos.toNat]] } } := by
  have hx : s.blk.txbuf[s.blk.txpos.toNat]? = some s.blk.txbuf[s.blk.txpos.toNat] := by simp [hp]
  cases ha : s.blk.afterTx <;> simp only [txAcc, if_pos h, hx, ha]

/-- RXBYTE in a receive phase with a byte in the FIFO (42_parser.md R142). -/
theorem rxByte_receiving {s : State} {x : Byte} {rest : List Byte} (h : s.blk.phase = .receiving)
    (hf : s.env.rxFifo = x :: rest) :
    rxByte s =
      match s.blk.afterRx s.params x with
      | .error f => .fault f
      | .ok b => .next { s with blk := b, env := { s.env with rxFifo := rest } } := by
  cases ha : s.blk.afterRx s.params x <;> simp only [rxByte, h, hf, ha]

/-- Everything a TXACC event can do (41_framer.md R124). -/
theorem txAcc_cases {s t : State} (h : txAcc s = .next t) :
    (s.blk.phase ≠ .sending ∧ t = s) ∨
    (s.blk.phase = .sending ∧ ∃ x b, s.blk.txbuf[s.blk.txpos.toNat]? = some x ∧ s.blk.afterTx = .ok b ∧
      t = { s with blk := b, env := { s.env with txStream := s.env.txStream ++ [x] } }) := by
  unfold txAcc at h
  split at h
  · next hp =>
    right
    refine ⟨hp, ?_⟩
    split at h
    · cases h
    · next x hx =>
      split at h
      · cases h
      · next b hb => cases h; exact ⟨x, b, hx, hb, rfl⟩
  · next hp => cases h; exact .inl ⟨hp, rfl⟩

/-- Everything an RXBYTE event can do (42_parser.md R142). -/
theorem rxByte_cases {s t : State} (h : rxByte s = .next t) :
    ((s.blk.phase ≠ .receiving ∨ s.env.rxFifo = []) ∧ t = s) ∨
    (s.blk.phase = .receiving ∧ ∃ x rest b, s.env.rxFifo = x :: rest ∧ s.blk.afterRx s.params x = .ok b ∧
      t = { s with blk := b, env := { s.env with rxFifo := rest } }) := by
  unfold rxByte at h
  split at h
  · next x rest hp hf =>
    right
    refine ⟨hp, x, rest, ?_⟩
    split at h
    · cases h
    · next b hb => cases h; exact ⟨b, hf, hb, rfl⟩
  · next hno =>
    cases h
    left
    refine ⟨?_, rfl⟩
    by_cases hp : s.blk.phase = .receiving
    · right
      cases hf : s.env.rxFifo with
      | nil => rfl
      | cons x rest => exact absurd hf (hno x rest hp)
    · exact .inl hp

/-- What TXACC puts on the TX stream is the byte the block offers, if it offers one (10_state.md R20). -/
theorem txAcc_txStream {s t : State} (h : txAcc s = .next t) :
    t.env.txStream = s.env.txStream ++ s.blk.txData.toList := by
  rcases txAcc_cases h with ⟨hp, rfl⟩ | ⟨hp, x, b, hx, -, rfl⟩
  · simp [Block.txData, Block.txValid, hp]
  · simp [Block.txData, Block.txValid, hp, hx]

/-- With rx_ready not asserted nothing is taken (10_state.md R22). -/
theorem rxByte_not_ready {s : State} (h : s.blk.rxReady = false) : rxByte s = .next s := by
  have hp : s.blk.phase ≠ .receiving := by
    intro hp
    simp [Block.rxReady, hp] at h
  unfold rxByte
  split
  · next hr _ => exact absurd hr hp
  · rfl

/-! ## The fetch -/

theorem step_nil {s : State} (h : s.env.inputs = []) : step s = .next s := by
  simp [step, fetch, h]

theorem fetch_cons {s : State} {x : Input} {rest : List Input} (h : s.env.inputs = x :: rest) :
    fetch s = fetchInput x s.pop := by
  simp [fetch, h]

theorem step_cons {s : State} {x : Input} {rest : List Input} (h : s.env.inputs = x :: rest) :
    step s =
      match fetchInput x s.pop with
      | .run i s' => exec i s'
      | .event o => o := by
  cases hf : fetchInput x s.pop <;> simp only [step, fetch_cons h, hf]

theorem pop_eq {s : State} {x : Input} {rest : List Input} (h : s.env.inputs = x :: rest) :
    s.pop = { s with env := { s.env with inputs := rest } } := by
  simp [State.pop, h]

/-- The register at a word offset of the window (20_memory.md R61). -/
theorem busReg_window (P : Params) {off : Nat} (h1 : off < 0x100) (h2 : off % 4 = 0) :
    busReg P (P.base + off) .word = .ok (regAt off) := by
  unfold busReg
  rw [if_neg (by omega), if_neg (by simp; omega)]
  simp

/-- The meaning of a frame in flight is the TXACC event (20_memory.md R68). -/
theorem sendBeat_inFlight {bs : List Byte} {s : State} (h1 : s.blk.phase = .sending) (h2 : s.inFlight = bs) :
    sendBeat bs s = txAcc s := by
  simp [sendBeat, h1, h2]

end Sys2Proof.Machine
end

