-- ==== Sys2Proof/Laws/Step.lean ====
section
/-! SUPPORT. What one step can do, once (10_state.md R22, R23): the event of the next input, each case in the model's own operations. -/

namespace Sys2Proof

/-- What follows LENFIELD is what the encoder writes there. -/
theorem decodeTail_wire {k : Kind} {lf : Half} {bs rest : List Byte} {i : Instr} (h : decodeTail k lf bs = .ok (i, rest)) :
    ∃ body, bs = body ++ rest ∧ encode i = .wire (frameHead k lf ++ body) := by
  unfold decodeTail at h
  split at h
  · next c0 c1 tl => cases h; exact ⟨[c0, c1], rfl, by simp [encode]⟩
  · next p0 p1 c0 c1 tl => cases h; exact ⟨[p0, p1, c0, c1], rfl, by simp [encode]⟩
  · next c0 c1 tl => cases h; exact ⟨[c0, c1], rfl, by simp [encode]⟩
  · next z0 z1 t0 t1 c0 c1 tl =>
    split at h
    · next hz => cases h; obtain ⟨rfl, rfl⟩ := hz; exact ⟨[_, _, t0, t1, c0, c1], rfl, by simp [encode]⟩
    · cases h
  · cases h

/-- A decoded wire frame is the encoding of its instruction, with the rest behind it (30_encoding.md R87). -/
theorem decodeWire_wire {bs rest : List Byte} {i : Instr} (h : decodeWire bs = .ok (i, rest)) :
    ∃ body, bs = body ++ rest ∧ encode i = .wire body := by
  unfold decodeWire at h
  split at h
  · split at h
    · cases h
    split at h
    · cases h
    split at h
    · cases h
    split at h
    · cases h
    · next h0 h1 c s k l0 l1 tl hh hc hs _ kind hk =>
      obtain ⟨body, rfl, he⟩ := decodeTail_wire h
      simp only [ne_eq, not_or, not_not] at hh hc hs
      obtain rfl := Kind.ofByte?_eq_some hk
      exact ⟨frameHead kind (be16 l0 l1) ++ body, by simp [frameHead, hh, hc, hs], he⟩
  · cases h

namespace Machine

/-- A frame in flight that decodes is the bytes of its instruction. -/
theorem wireBytes_of_decode {bs : List Byte} {i : Instr} (h : decode (.wire bs) = .ok i) : wireBytes i = bs := by
  unfold decode at h
  simp only at h
  split at h
  · cases h
  · next hd =>
    cases h
    obtain ⟨body, rfl, he⟩ := decodeWire_wire hd
    simp [wireBytes, he]
  · cases h

/-- A wire frame's meaning is one TXACC event of it. -/
theorem exec_wire {i : Instr} {bs : List Byte} (s : State) (h : encode i = .wire bs) : exec i s = sendBeat bs s := by
  have hw : wireBytes i = bs := by simp [wireBytes, h]
  subst hw
  cases i <;> first | rfl | cases h

/-- What decodes from a wire is a wire frame. -/
theorem encode_of_decode_wire {bs : List Byte} {i : Instr} (h : decode (.wire bs) = .ok i) : encode i = .wire bs := by
  have hw := wireBytes_of_decode h
  cases i <;> simp_all [wireBytes, encode] <;>
    · unfold decode at h
      simp only [decodeWire] at h
      cases h

/-- A TXACC input is the TXACC event, whatever the frame in flight is (41_framer.md R124). -/
theorem step_txAcc {s : State} {rest : List Input} (h : s.env.inputs = .txAcc :: rest) : step s = txAcc s.pop := by
  rw [step_cons h]
  simp only [fetchInput, fetchTx]
  by_cases hp : s.pop.blk.phase = .sending
  · rw [if_pos hp]
    cases hd : decode (.wire s.pop.inFlight) with
    | error e => rfl
    | ok i => exact (exec_wire _ (encode_of_decode_wire hd)).trans (sendBeat_inFlight hp rfl)
  · rw [if_neg hp]

theorem step_rxByte {s : State} {rest : List Input} (h : s.env.inputs = .rxByte :: rest) : step s = rxByte s.pop := by
  rw [step_cons h]; rfl

theorem step_timeout {s : State} {rest : List Input} (h : s.env.inputs = .timeout :: rest) :
    step s = .next (timeout s.pop) := by
  rw [step_cons h]; rfl

theorem step_reset {s : State} {rest : List Input} (h : s.env.inputs = .reset :: rest) :
    step s = .next (resetBlock s.pop) := by
  rw [step_cons h]; rfl

theorem step_rxArrive {s : State} {x : Byte} {rest : List Input} (h : s.env.inputs = .rxArrive x :: rest) :
    step s = .next (rxArrive x s.pop) := by
  rw [step_cons h]; rfl

theorem step_hostRd {s : State} {addr : Nat} {size : AccessSize} {rest : List Input}
    (h : s.env.inputs = .hostRd addr size :: rest) :
    step s =
      match busReg s.params addr size with
      | .error r => .refused r
      | .ok r => .next (hostRead r s.pop) := by
  rw [step_cons h]
  simp only [fetchInput, State.pop_params]
  cases busReg s.params addr size <;> rfl

theorem step_hostWr {s : State} {addr : Nat} {size : AccessSize} {v : Word} {rest : List Input}
    (h : s.env.inputs = .hostWr addr size v :: rest) :
    step s =
      match busReg s.params addr size with
      | .error r => .refused r
      | .ok .cmd => exec (decodeCmd v) s.pop
      | .ok r => .next (s.pop.withBlk (writeReg s.blk v r)) := by
  rw [step_cons h]
  simp only [fetchInput, State.pop_params]
  cases hr : busReg s.params addr size with
  | error r => rfl
  | ok r => cases r <;> rfl

/-- Everything a step that answers a next state can have done. -/
theorem step_next_cases {s t : State} (h : step s = .next t) :
    (s.env.inputs = [] ∧ t = s) ∨
    (∃ addr size v, s.env.inputs.head? = some (.hostWr addr size v) ∧ busReg s.params addr size = .ok .cmd ∧
      exec (decodeCmd v) s.pop = .next t) ∨
    (∃ addr size v r, s.env.inputs.head? = some (.hostWr addr size v) ∧ r ≠ .cmd ∧ busReg s.params addr size = .ok r ∧
      t = s.pop.withBlk (writeReg s.blk v r)) ∨
    (∃ addr size r, s.env.inputs.head? = some (.hostRd addr size) ∧ t = hostRead r s.pop) ∨
    (s.env.inputs.head? = some .txAcc ∧ txAcc s.pop = .next t) ∨
    (∃ x, s.env.inputs.head? = some (.rxArrive x) ∧ t = rxArrive x s.pop) ∨
    (s.env.inputs.head? = some .rxByte ∧ rxByte s.pop = .next t) ∨
    (s.env.inputs.head? = some .timeout ∧ t = timeout s.pop) ∨
    (s.env.inputs.head? = some .reset ∧ t = resetBlock s.pop) := by
  cases hin : s.env.inputs with
  | nil =>
    rw [step_nil hin] at h
    cases h
    exact .inl ⟨rfl, rfl⟩
  | cons x rest =>
    right
    simp only [List.head?_cons, Option.some.injEq]
    cases x with
    | hostWr addr size v =>
      rw [step_hostWr hin] at h
      cases hr : busReg s.params addr size with
      | error r => rw [hr] at h; cases h
      | ok r =>
        rw [hr] at h
        by_cases hc : r = .cmd
        · subst hc; exact .inl ⟨addr, size, v, rfl, hr, h⟩
        · refine .inr (.inl ⟨addr, size, v, r, rfl, hc, hr, ?_⟩)
          cases r <;> first | exact absurd rfl hc | (cases h; rfl)
    | hostRd addr size =>
      rw [step_hostRd hin] at h
      cases hr : busReg s.params addr size with
      | error r => rw [hr] at h; cases h
      | ok r => rw [hr] at h; cases h; exact .inr (.inr (.inl ⟨addr, size, r, rfl, rfl⟩))
    | txAcc => rw [step_txAcc hin] at h; simp [h]
    | rxArrive b => rw [step_rxArrive hin] at h; cases h; simp
    | rxByte => rw [step_rxByte hin] at h; simp [h]
    | timeout => rw [step_timeout hin] at h; cases h; simp
    | reset => rw [step_reset hin] at h; cases h; simp

end Machine

end Sys2Proof
end

