-- ==== Sys2Proof/Laws/Exec.lean ====
section
/-! SUPPORT. What the command words can do, once: a busy block drops every word (10_state.md R40), an idle one changes neither the
parameters nor anything outside the block; which bus address selects which register (10_state.md R39); the buffer a verified
response leaves (42_parser.md R142). -/

namespace Sys2Proof.Machine

/-! ## The bus -/

theorem regAt_txbuf {i : Nat} (h : i < 16) : regAt (0x40 + 4 * i) = .txbuf ⟨i, h⟩ := by
  unfold regAt
  repeat rw [if_neg (by omega)]
  rw [dif_pos (by omega)]
  congr 2
  omega

theorem regAt_rxbuf {i : Nat} (h : i < 16) : regAt (0x80 + 4 * i) = .rxbuf ⟨i, h⟩ := by
  unfold regAt
  repeat rw [if_neg (by omega)]
  rw [dif_neg (by omega), dif_pos (by omega)]
  congr 2
  omega

theorem regAt_unmapped {off : Nat} (h : (0x1C ≤ off ∧ off < 0x40) ∨ 0xC0 ≤ off) : regAt off = .unmapped := by
  unfold regAt
  repeat rw [if_neg (by omega)]
  rw [dif_neg (by omega), dif_neg (by omega)]

theorem offset_of_regAt_status {off : Nat} (h : regAt off = .status) : off = 0x04 := by
  unfold regAt at h
  repeat' split at h
  all_goals first | assumption | cases h

theorem offset_of_regAt_rxbuf {off : Nat} {i : Fin 16} (h : regAt off = .rxbuf i) : 0x80 ≤ off ∧ off < 0xC0 := by
  unfold regAt at h
  repeat' split at h
  all_goals first | assumption | cases h

/-- An access that reaches a register is an aligned word access inside the window (20_memory.md R61). -/
theorem busReg_ok {P : Params} {addr : Nat} {size : AccessSize} {r : Reg} (h : busReg P addr size = .ok r) :
    ∃ off, addr = P.base + off ∧ off < 0x100 ∧ off % 4 = 0 ∧ size = .word ∧ r = regAt off := by
  unfold busReg at h
  split at h
  · cases h
  · split at h
    · cases h
    · next h1 h2 =>
      cases h
      simp only [not_or, not_not] at h1 h2
      exact ⟨addr - P.base, by omega, by omega, h2.2, h2.1, rfl⟩

/-! ## Command words -/

/-- Every command word of a busy block is dropped (10_state.md R40). -/
theorem exec_cmd_busy (v : Word) {s : State} (h : s.blk.phase ≠ .idle) : exec (decodeCmd v) s = .next s.dropWrite := by
  unfold decodeCmd
  split <;>
    simp only [exec, execNop, execCkclr, execCkadd, execCktx, execCkrx, execBuild, execLdcmd, execSend, execRecv, execVerify,
      execVfytx, execGetu8, execGetu16, execGetu32, execXchg, execParse, execIllegal, issue_busy _ h,
      issueChecked_busy _ h]

/-- A command word changes only the block (00_scope.md R15). -/
theorem exec_cmd_outside {v : Word} {s t : State} (h : exec (decodeCmd v) s = .next t) :
    t.params = s.params ∧ t.env = s.env := by
  by_cases hi : s.blk.phase = .idle
  · unfold decodeCmd at h
    split at h <;>
      simp only [exec, execNop, execCkclr, execCkadd, execCktx, execCkrx, execBuild, execLdcmd, execSend, execRecv, execVerify,
        execVfytx, execGetu8, execGetu16, execGetu32, execXchg, execParse, execIllegal, issue_idle _ hi,
        issueChecked_idle _ hi] at h
    all_goals
      first
      | (cases h; exact ⟨rfl, rfl⟩)
      | (split at h
         · cases h; exact ⟨rfl, rfl⟩
         · cases h)
  · rw [exec_cmd_busy v hi] at h
    cases h
    exact ⟨rfl, rfl⟩

/-! ## The templates' checksums -/

/-- The closed forms of R171 to R174: what the four templates sum to. -/
theorem template_sum (P : Params) (k : Kind) (imm : Half) :
    sum16 (template P k imm) =
      match k with
      | .readConc => 0x0132#16 + byteSum P.lfReadConc
      | .setPressure => 0x0130#16 + byteSum P.lfSetPressure + byteSum imm
      | .spcStatus => 0x0134#16 + byteSum P.lfSpcStatus
      | .setSpc => 0x0133#16 + byteSum P.lfSetSpc + byteSum imm := by
  cases k <;>
    · simp only [template, frameHead, paramBytes, Params.lenField, sum16_cons, sum16_nil, byteSum, Config.hdr0, Config.hdr1,
        Config.cls, Kind.code, List.cons_append, List.nil_append]
      simp only [← BitVec.add_assoc]
      simp

/-- A command word that names a kind and an accepted parameter loads its frame (41_framer.md R122). -/
theorem exec_ldcmd {a : Byte} {k : Kind} {imm : Half} {s : State} (h : s.blk.phase = .idle) (hk : Kind.ofByte? a = some k)
    (hp : paramOk s.params k imm = true) :
    exec (.ldcmd a imm) s = .next (s.withBlk ((s.blk.beginOp.loadFrame s.params k imm).complete true .none)) := by
  simp only [exec, execLdcmd, issue_idle _ h, hk, hp, if_true]

/-- Any other LDCMD reports an error: OK = 0 (41_framer.md R122). -/
theorem exec_ldcmd_ok {a : Byte} {imm : Half} {s t : State} (h : s.blk.phase = .idle)
    (ht : exec (.ldcmd a imm) s = .next t) (hok : t.blk.ok = true) :
    ∃ k, Kind.ofByte? a = some k ∧ paramOk s.params k imm = true ∧
      t = s.withBlk ((s.blk.beginOp.loadFrame s.params k imm).complete true .none) := by
  simp only [exec, execLdcmd, issue_idle _ h] at ht
  cases ht
  revert hok
  dsimp only [State.withBlk]
  split
  · intro hok; cases hok
  · next k hk =>
    split
    · next hp => intro _; exact ⟨k, hk, hp, rfl⟩
    · intro hok; cases hok

/-- PARSE of a loaded command (43_exchange_and_commands.md R176). -/
theorem exec_parse {k : Kind} {s : State} (a : Byte) (imm : Half) (h : s.blk.phase = .idle) (hv : s.blk.kvalid = true)
    (hk : Kind.ofByte? s.blk.kind = some k) :
    exec (.parse a imm) s = .next (s.withBlk (s.blk.beginOp.clearCkok.parseFrame s.params k)) := by
  have e0 : s.blk.beginOp.clearCkok.kvalid = true := hv
  have e1 : Kind.ofByte? s.blk.beginOp.clearCkok.kind = some k := hk
  simp only [exec, execParse, issueChecked_idle _ h, e0, e1, if_true]

/-- XCHG of a loaded command (43_exchange_and_commands.md R175). -/
theorem exec_xchg {L : FrameLen} {s : State} (a : Byte) (imm : Half) (h : s.blk.phase = .idle) (hv : s.blk.kvalid = true)
    (hL : s.blk.txlen.toNat = L.val) :
    exec (.xchg a imm) s = .next (s.withBlk
      { s.blk.beginOp.clearCkok.inject L with txpos := 0#5, chain := true, phase := .sending }) := by
  have e0 : s.blk.beginOp.clearCkok.kvalid = true := hv
  have e1 : frameLen? s.blk.beginOp.clearCkok.txlen.toNat = some L := by
    show frameLen? s.blk.txlen.toNat = some L
    rw [hL, frameLen?_eq_some L.property]
  simp only [exec, execXchg, issueChecked_idle _ h, e0, e1, if_true]

/-- The frame inject leaves: its bytes before the checksum, then the checksum (41_framer.md R120). -/
theorem Block.inject_take (b : Block) (L : FrameLen) :
    (b.inject L).txbuf.toList.take L.val =
      b.txbuf.first (L.val - 2) ++ [hi (b.txbuf.sum (L.val - 2)), lo (b.txbuf.sum (L.val - 2))] := by
  have hL := L.property
  apply List.ext_getElem
  · simp
    omega
  · intro i h1 h2
    simp only [List.length_take, Vector.length_toList] at h1
    rw [List.getElem_take, Vector.getElem_toList]
    by_cases hlt : i < L.val - 2
    · rw [Block.inject_getElem_other _ _ _ (by omega) (by omega) (by omega),
        List.getElem_append_left (by simp; omega)]
      simp [Buf.first]
    · rw [List.getElem_append_right (by simp; omega)]
      simp only [Block.inject, Buf.first_length, Vector.getElem_setIfInBounds]
      have hm : min (L.val - 2) 16 = L.val - 2 := by omega
      by_cases he : i = L.val - 2
      · subst he
        simp [hm]
        omega
      · have he1 : i = L.val - 1 := by omega
        subst he1
        have : L.val - 1 - (L.val - 2) = 1 := by omega
        simp [hm, this]

/-! ## The end of an operation, of a phase -/

/-- TXACC changes none of the buffers, nor ACC, RESULT, CONC, the command, CKOK, FLAG, WARM or DROP (41_framer.md R124). -/
theorem Block.afterTx_frame {b c : Block} (h : b.afterTx = .ok c) :
    c = { b with
      phase := c.phase, chain := c.chain, ok := c.ok, done := c.done, err := c.err, txpos := c.txpos, rxlen := c.rxlen,
      rxcnt := c.rxcnt } := by
  unfold Block.afterTx Block.sendDone at h
  repeat' split at h
  all_goals cases h
  all_goals rfl

/-- A response copied to RXBUF after its checksum matched verifies there too (42_parser.md R142). -/
theorem Buf.copied_goodFrame (B : Buf) {sh : Buf} {L : FrameLen} (h : sh.verifies L = true) :
    (B.writeAt 0 (sh.first L.val)).goodFrame L := by
  have hL := L.property
  rw [Buf.verifies_iff] at h
  have key : ∀ i (h16 : i < 16), i < L.val → (B.writeAt 0 (sh.first L.val))[i] = sh[i] := by
    intro i h16 hi
    rw [Buf.writeAt_getElem, dif_pos]
    · simp [Buf.first]
    · simp
      omega
  unfold Buf.goodFrame at h ⊢
  rw [key _ _ (by omega), key _ _ (by omega), Buf.total_congr _ sh _ (fun i h16 hi => key i h16 (by omega))]
  exact h

end Sys2Proof.Machine
end

