-- ==== Sys2Proof/Laws/PerInstr.lean ====
section
/-! SUPPORT. What holds of every instruction as syntax, one lemma per constructor: its encoding has the width the opcode table gives
its row (30_encoding.md R80, R87; 43_exchange_and_commands.md R170). -/

namespace Sys2Proof.Laws.RowWidth

/-- The number of bytes of an encoding: 4 of a command word, else the frame's. -/
def width : Code → Nat
  | .cmd _ => 4
  | .wire bs => bs.length

/-- The bytes of each row. -/
def rowBytes : Instr → Nat
  | .frameReadConc _ _ => 9
  | .frameSetPressure _ _ _ => 11
  | .frameSpcStatus _ _ => 9
  | .frameSetSpc _ _ _ => 13
  | .nop _ _ | .ckclr _ _ | .ckadd _ _ | .cktx _ _ | .ckrx _ _ | .build _ _ | .ldcmd _ _ | .send _ _ | .recv _ _
  | .verify _ _ | .vfytx _ _ | .getu8 _ _ | .getu16 _ _ | .getu32 _ _ | .xchg _ _ | .parse _ _ | .illegal _ _ _ => 4

/-- The encoding of an instruction has its row's width. -/
def Statement (i : Instr) : Prop := width (encode i) = rowBytes i

theorem nop (a : Byte) (imm : Half) : Statement (.nop a imm) := rfl
theorem ckclr (a : Byte) (imm : Half) : Statement (.ckclr a imm) := rfl
theorem ckadd (a : Byte) (imm : Half) : Statement (.ckadd a imm) := rfl
theorem cktx (a : Byte) (imm : Half) : Statement (.cktx a imm) := rfl
theorem ckrx (a : Byte) (imm : Half) : Statement (.ckrx a imm) := rfl
theorem build (a : Byte) (imm : Half) : Statement (.build a imm) := rfl
theorem ldcmd (a : Byte) (imm : Half) : Statement (.ldcmd a imm) := rfl
theorem send (a : Byte) (imm : Half) : Statement (.send a imm) := rfl
theorem recv (a : Byte) (imm : Half) : Statement (.recv a imm) := rfl
theorem verify (a : Byte) (imm : Half) : Statement (.verify a imm) := rfl
theorem vfytx (a : Byte) (imm : Half) : Statement (.vfytx a imm) := rfl
theorem getu8 (a : Byte) (imm : Half) : Statement (.getu8 a imm) := rfl
theorem getu16 (a : Byte) (imm : Half) : Statement (.getu16 a imm) := rfl
theorem getu32 (a : Byte) (imm : Half) : Statement (.getu32 a imm) := rfl
theorem xchg (a : Byte) (imm : Half) : Statement (.xchg a imm) := rfl
theorem parse (a : Byte) (imm : Half) : Statement (.parse a imm) := rfl
theorem illegal (op a : Byte) (imm : Half) : Statement (.illegal op a imm) := rfl
theorem frameReadConc (lf ck : Half) : Statement (.frameReadConc lf ck) := rfl
theorem frameSetPressure (lf p ck : Half) : Statement (.frameSetPressure lf p ck) := rfl
theorem frameSpcStatus (lf ck : Half) : Statement (.frameSpcStatus lf ck) := rfl
theorem frameSetSpc (lf t ck : Half) : Statement (.frameSetSpc lf t ck) := rfl

end Sys2Proof.Laws.RowWidth
end

