-- ==== Sys2Proof/Machine/Pseudo.lean ====
section
/-! DEFINITION. Host programs: the lines of the assembler (30_encoding.md R90) and the pseudo-instructions (R91) as the host's
accesses. The block never sees a pseudo-instruction as a unit (R91); no rule of the machine rests on this file. -/

namespace Sys2Proof.Machine

/-- WR off, v: one host write (R90). -/
def lineWr (base off : Nat) (v : Word) : Input := .hostWr (base + off) .word v

/-- RD off: one host read (R90). -/
def lineRd (base off : Nat) : Input := .hostRd (base + off) .word

/-- The line of a command word (R90); a wire frame is no host line. -/
def lineOf (base : Nat) (i : Instr) : List Input :=
  match encode i with
  | .cmd v => [lineWr base 0x00 v]
  | .wire _ => []

/-- The pseudo-instructions (R91). -/
inductive Pseudo where
  | poll
  | ckset (v : Word)
  | txb (i : Fin 16) (b : Byte)
  | rxb (i : Fin 16) (b : Byte)
  | readconc
  | setpres (v : Half)
  | spcready
  | setspc (v : Half)
  | clrdrop
  deriving DecidableEq, Repr

/-- POLL: `n` reads of STATUS, the last one the first that shows BUSY = 0 (R91). -/
def pollLines (base n : Nat) : List Input := List.replicate n (lineRd base 0x04)

/-- The expansion of R91: `n` reads in its POLL, and `ok` for the OK bit its own read of STATUS showed. -/
def Pseudo.lines (base n : Nat) (ok : Bool) : Pseudo → List Input
  | .poll => pollLines base n
  | .ckset v => [lineWr base 0x08 v]
  | .txb i b => [lineWr base (0x40 + 4 * i) (b.setWidth 32)]
  | .rxb i b => [lineWr base (0x80 + 4 * i) (b.setWidth 32)]
  | .readconc => lineOf base (.ldcmd Kind.readConc.code 0#16) ++ lineOf base (.xchg 0#8 0#16) ++ pollLines base n
  | .setpres v =>
    lineOf base (.ldcmd Kind.setPressure.code v) ++ [lineRd base 0x04]
      ++ (if ok then lineOf base (.xchg 0#8 0#16) else []) ++ pollLines base n
  | .spcready => lineOf base (.ldcmd Kind.spcStatus.code 0#16) ++ lineOf base (.xchg 0#8 0#16) ++ pollLines base n
  | .setspc v =>
    lineOf base (.ldcmd Kind.setSpc.code v) ++ [lineRd base 0x04]
      ++ (if ok then lineOf base (.xchg 0#8 0#16) else []) ++ pollLines base n
  | .clrdrop => [lineWr base 0x04 0x00010000#32]

end Sys2Proof.Machine
end

