-- ==== Sys2Proof/Tests/Slice0.lean ====
section
/-! SUPPORT. The model's own tests. Expected values are the words and bytes of 30_encoding.md and the vectors of
95_test_vectors.md (V-C to V-H), or worked by hand from the rules; then one witness for each statement that has hypotheses. -/

namespace Sys2Proof.Tests

open Sys2Proof.Machine

/-! ## Well-formedness: an ill-formed term for each check -/

theorem test_wf_illegal_refuses_mapped_op : (Instr.illegal 0x02#8 0#8 0#16).wf Params.default = false := by decide
theorem test_wf_illegal_takes_unmapped_op : (Instr.illegal 0x05#8 0x12#8 0x3456#16).wf Params.default = true := by decide
theorem test_wf_readConc_lenField : (Instr.frameReadConc 0x0100#16 0x0133#16).wf Params.default = false := by decide
theorem test_wf_readConc_checksum : (Instr.frameReadConc 0x0000#16 0x0133#16).wf Params.default = false := by decide
theorem test_wf_readConc : (Instr.frameReadConc 0x0000#16 0x0132#16).wf Params.default = true := by decide
theorem test_wf_setPressure_lenField : (Instr.frameSetPressure 0x0000#16 0x03F5#16 0x0228#16).wf Params.default = false := by
  decide
theorem test_wf_setPressure_low : (Instr.frameSetPressure 0x0002#16 699#16 0x01EF#16).wf Params.default = false := by decide
theorem test_wf_setPressure_high : (Instr.frameSetPressure 0x0002#16 1101#16 0x0183#16).wf Params.default = false := by decide
theorem test_wf_setPressure_checksum : (Instr.frameSetPressure 0x0002#16 0x03F5#16 0x022B#16).wf Params.default = false := by
  decide
theorem test_wf_setPressure : (Instr.frameSetPressure 0x0002#16 0x03F5#16 0x022A#16).wf Params.default = true := by decide
theorem test_wf_spcStatus_lenField : (Instr.frameSpcStatus 0x0001#16 0x0135#16).wf Params.default = false := by decide
theorem test_wf_spcStatus_checksum : (Instr.frameSpcStatus 0x0000#16 0x0034#16).wf Params.default = false := by decide
theorem test_wf_setSpc_lenField : (Instr.frameSetSpc 0x0005#16 400#16 0x01C9#16).wf Params.default = false := by decide
theorem test_wf_setSpc_low : (Instr.frameSetSpc 0x0004#16 399#16 0x01C7#16).wf Params.default = false := by decide
theorem test_wf_setSpc_high : (Instr.frameSetSpc 0x0004#16 2001#16 0x020F#16).wf Params.default = false := by decide
theorem test_wf_setSpc_checksum : (Instr.frameSetSpc 0x0004#16 400#16 0x01C9#16).wf Params.default = false := by decide
theorem test_wf_setSpc : (Instr.frameSetSpc 0x0004#16 2000#16 0x020E#16).wf Params.default = true := by decide

/-! ## Decoding: words and frames written out from 30_encoding.md R80 to R87 -/

theorem test_decode_nop : decode (.cmd 0x00000000#32) = .ok (.nop 0#8 0#16) := rfl
theorem test_decode_ckclr : decode (.cmd 0x00000001#32) = .ok (.ckclr 0#8 0#16) := rfl
theorem test_decode_ckadd : decode (.cmd 0x0000FF02#32) = .ok (.ckadd 0xFF#8 0#16) := rfl
theorem test_decode_cktx : decode (.cmd 0x00001003#32) = .ok (.cktx 0x10#8 0#16) := rfl
theorem test_decode_ckrx : decode (.cmd 0x00001104#32) = .ok (.ckrx 0x11#8 0#16) := rfl
theorem test_decode_build : decode (.cmd 0x00000910#32) = .ok (.build 0x09#8 0#16) := rfl
theorem test_decode_ldcmd : decode (.cmd 0x03F50111#32) = .ok (.ldcmd 0x01#8 0x03F5#16) := rfl
theorem test_decode_send : decode (.cmd 0x00000012#32) = .ok (.send 0#8 0#16) := rfl
theorem test_decode_recv : decode (.cmd 0x00000E20#32) = .ok (.recv 0x0E#8 0#16) := rfl
theorem test_decode_verify : decode (.cmd 0x00000E21#32) = .ok (.verify 0x0E#8 0#16) := rfl
theorem test_decode_vfytx : decode (.cmd 0x00000922#32) = .ok (.vfytx 0x09#8 0#16) := rfl
theorem test_decode_getu8 : decode (.cmd 0x00000B23#32) = .ok (.getu8 0x0B#8 0#16) := rfl
theorem test_decode_getu16 : decode (.cmd 0x00000C24#32) = .ok (.getu16 0x0C#8 0#16) := rfl
theorem test_decode_getu32 : decode (.cmd 0x00000725#32) = .ok (.getu32 0x07#8 0#16) := rfl
theorem test_decode_xchg : decode (.cmd 0x00000030#32) = .ok (.xchg 0#8 0#16) := rfl
theorem test_decode_parse : decode (.cmd 0x00000031#32) = .ok (.parse 0#8 0#16) := rfl
theorem test_decode_illegal : decode (.cmd 0x34561205#32) = .ok (.illegal 0x05#8 0x12#8 0x3456#16) := rfl
theorem test_decode_frameReadConc :
    decode (.wire [0x42#8, 0x4D#8, 0xA0#8, 0x00#8, 0x03#8, 0x00#8, 0x00#8, 0x01#8, 0x32#8])
      = .ok (.frameReadConc 0x0000#16 0x0132#16) := rfl
theorem test_decode_frameSetPressure :
    decode (.wire [0x42#8, 0x4D#8, 0xA0#8, 0x00#8, 0x01#8, 0x00#8, 0x02#8, 0x02#8, 0xBC#8, 0x01#8, 0xF0#8])
      = .ok (.frameSetPressure 0x0002#16 0x02BC#16 0x01F0#16) := rfl
theorem test_decode_frameSpcStatus :
    decode (.wire [0x42#8, 0x4D#8, 0xA0#8, 0x00#8, 0x05#8, 0x00#8, 0x00#8, 0x01#8, 0x34#8])
      = .ok (.frameSpcStatus 0x0000#16 0x0134#16) := rfl
theorem test_decode_frameSetSpc :
    decode (.wire [0x42#8, 0x4D#8, 0xA0#8, 0x00#8, 0x04#8, 0x00#8, 0x04#8, 0x00#8, 0x00#8, 0x07#8, 0xD0#8, 0x02#8, 0x0E#8])
      = .ok (.frameSetSpc 0x0004#16 0x07D0#16 0x020E#16) := rfl

theorem test_decode_truncated :
    decode (.wire [0x42#8, 0x4D#8, 0xA0#8, 0x00#8, 0x03#8, 0x00#8, 0x00#8, 0x01#8]) = .error .truncated := rfl
theorem test_decode_trailing :
    decode (.wire [0x42#8, 0x4D#8, 0xA0#8, 0x00#8, 0x03#8, 0x00#8, 0x00#8, 0x01#8, 0x32#8, 0x00#8]) = .error .trailing := rfl
theorem test_decode_badHeader :
    decode (.wire [0x42#8, 0x4E#8, 0xA0#8, 0x00#8, 0x03#8, 0x00#8, 0x00#8, 0x01#8, 0x32#8]) = .error .badHeader := rfl
theorem test_decode_badClass :
    decode (.wire [0x42#8, 0x4D#8, 0xA1#8, 0x00#8, 0x03#8, 0x00#8, 0x00#8, 0x01#8, 0x32#8]) = .error .badClass := rfl
theorem test_decode_badSubop :
    decode (.wire [0x42#8, 0x4D#8, 0xA0#8, 0x01#8, 0x03#8, 0x00#8, 0x00#8, 0x01#8, 0x32#8]) = .error .badSubop := rfl
theorem test_decode_unknownKind :
    decode (.wire [0x42#8, 0x4D#8, 0xA0#8, 0x00#8, 0x02#8, 0x00#8, 0x00#8, 0x01#8, 0x32#8]) = .error .unknownKind := rfl
theorem test_decode_reservedNonzero :
    decode (.wire [0x42#8, 0x4D#8, 0xA0#8, 0x00#8, 0x04#8, 0x00#8, 0x04#8, 0x00#8, 0x01#8, 0x07#8, 0xD0#8, 0x02#8, 0x0E#8])
      = .error .reservedNonzero := rfl

/-! The opcode table's numbering: byte 0 in bits 7:0, operands zero. -/

theorem test_table_ldcmd : decodeTableWord 32 0x11 = some (.ldcmd 0#8 0#16) := by decide
theorem test_table_frameReadConc : decodeTableWord 72 0x0300A04D42 = some (.frameReadConc 0#16 0#16) := by decide
theorem test_table_frameSetPressure : decodeTableWord 88 0x0100A04D42 = some (.frameSetPressure 0#16 0#16 0#16) := by decide
theorem test_table_frameSpcStatus : decodeTableWord 72 0x0500A04D42 = some (.frameSpcStatus 0#16 0#16) := by decide
theorem test_table_frameSetSpc : decodeTableWord 104 0x0400A04D42 = some (.frameSetSpc 0#16 0#16 0#16) := by decide

/-! ## A small state -/

/-- A buffer that starts with the given bytes, zero behind them. -/
def buf (bs : List Byte) : Buf := Buf.writeAt (Vector.replicate 16 0#8) 0 bs

/-- A block after RESET whose buffers the host has cleared. -/
def idle : Block := { Block.afterReset 0 with txbuf := buf [], rxbuf := buf [], shadow := buf [] }

/-- The default instance with the block `b`, the inputs to come and the RX FIFO. -/
def st (b : Block) (ins : List Input) (fifo : List Byte) : State where
  params := Params.default
  blk := b
  env := { rxFifo := fifo, txStream := [], hostReads := [], inputs := ins, draws := 48 }

/-- The state a step answers, if it does. -/
def next? : Host.Outcome State Fault Refusal → Option State
  | .next t => some t
  | .fault _ => none
  | .refused _ => none

/-- The block after the host wrote `v` to CMD: one step. -/
def cmd (v : Word) (b : Block) : Option Block := (next? (step (st b [.hostWr 0 .word v] []))).map State.blk

/-- The block after the input `x`: one step. -/
def ev (x : Input) (b : Block) (fifo : List Byte) : Option Block := (next? (step (st b [x] fifo))).map State.blk

/-- RESP_RC of 95_test_vectors.md: 500 ppm, status 0. -/
def respRc : List Byte :=
  [0x42#8, 0x4D#8, 0xA0#8, 0x00#8, 0x03#8, 0x00#8, 0x05#8, 0x00#8, 0x00#8, 0x01#8, 0xF4#8, 0x00#8, 0x02#8, 0x2C#8]

/-- The READ_CONC command frame. -/
def cmdRc : List Byte := [0x42#8, 0x4D#8, 0xA0#8, 0x00#8, 0x03#8, 0x00#8, 0x00#8, 0x01#8, 0x32#8]

/-- A block that LDCMD READ_CONC has loaded. -/
def loadedRc : Block :=
  { idle with txbuf := buf cmdRc, acc := 0x0132#16, txlen := 9#5, kind := 0x03#8, kvalid := true, done := true, ok := true }

/-- The READ_CONC exchange waiting for the last byte of the response whose first 13 bytes are `bs`. -/
def lastByte (bs : List Byte) : Block :=
  { loadedRc with
    done := false, ok := false, phase := .receiving, chain := true, txpos := 9#5, rxlen := 14#5, rxcnt := 13#5,
    shadow := buf bs }

/-! ## One step of each instruction -/

/-- V-C13: NOP clears ERR. -/
theorem test_nop : (cmd 0x00000000#32 { idle with err := .checksum, ckok := true }).map Block.statusWord
    = some 0x0000000E#32 := by decide
/-- V-C8. -/
theorem test_ckclr : (cmd 0x00000001#32 { idle with acc := 0x007F#16 }).map (fun b => (b.acc, b.statusWord))
    = some (0x0000#16, 0x00000006#32) := by decide
/-- V-C5: the wrap leaves no carry. -/
theorem test_ckadd_wraps : (cmd 0x00000102#32 { idle with acc := 0xFFFF#16 }).map (fun b => (b.acc, b.statusWord))
    = some (0x0000#16, 0x00000006#32) := by decide
/-- V-C7. -/
theorem test_ckadd_carries_into_high_byte : (cmd 0x0000FF02#32 { idle with acc := 0xFF80#16 }).map Block.acc
    = some 0x007F#16 := by decide
/-- V-C9. -/
theorem test_cktx_16 : (cmd 0x00001003#32 { idle with txbuf := buf (List.replicate 16 0xFF#8) }).map
    (fun b => (b.acc, b.statusWord)) = some (0x0FF0#16, 0x00000006#32) := by decide
/-- V-C10. -/
theorem test_cktx_0 : (cmd 0x00000003#32 { idle with acc := 0x1234#16, txbuf := buf cmdRc }).map Block.acc
    = some 0x0000#16 := by decide
/-- V-C12. -/
theorem test_ckrx_12 : (cmd 0x00000C04#32 { idle with rxbuf := buf respRc }).map Block.acc = some 0x022C#16 := by decide
/-- V-C11. -/
theorem test_ckrx_17 : (cmd 0x00001104#32 { idle with acc := 0x1234#16 }).map (fun b => (b.acc, b.statusWord))
    = some (0x1234#16, 0x00000602#32) := by decide
/-- V-C14. -/
theorem test_illegal : (cmd 0x34561205#32 { idle with acc := 0x1234#16 }).map (fun b => (b.acc, b.statusWord))
    = some (0x1234#16, 0x00000502#32) := by decide
/-- V-F1. -/
theorem test_build_9 : (cmd 0x00000910#32 { idle with txbuf := buf (cmdRc.take 7), kvalid := true }).map
    (fun b => (b.txbuf.first 9, b.acc, b.frameWord, b.kvalid)) = some (cmdRc, 0x0132#16, 0x00000009#32, false) := by decide
/-- V-F2: the checksum of zero bytes overwrites both. -/
theorem test_build_2 : (cmd 0x00000210#32 { idle with txbuf := buf [0x55#8, 0x66#8] }).map
    (fun b => (b.txbuf.first 2, b.acc, b.txlen)) = some ([0x00#8, 0x00#8], 0x0000#16, 2#5) := by decide
/-- V-F11. -/
theorem test_ldcmd_setPressure : (cmd 0x03F50111#32 idle).map (fun b => (b.txbuf.first 11, b.acc, b.kindWord)) = some
    ([0x42#8, 0x4D#8, 0xA0#8, 0x00#8, 0x01#8, 0x00#8, 0x02#8, 0x03#8, 0xF5#8, 0x02#8, 0x2A#8], 0x022A#16, 0x00000101#32) := by
  decide
/-- V-F12: 2001 is above SPC_MAX. -/
theorem test_ldcmd_validation : (cmd 0x07D10411#32 { idle with kvalid := true }).map (fun b => (b.statusWord, b.kvalid))
    = some (0x00000102#32, false) := by decide
/-- SEND of a loaded frame (R123): BUSY, PHASE = 1. -/
theorem test_send : (cmd 0x00000012#32 { loadedRc with txpos := 9#5 }).map (fun b => (b.statusWord, b.txpos))
    = some (0x00000021#32, 0#5) := by decide
/-- V-F5. -/
theorem test_send_nothing : (cmd 0x00000012#32 idle).map Block.statusWord = some 0x00000602#32 := by decide
/-- RECV 14 (R141): BUSY, PHASE = 2, CKOK cleared. -/
theorem test_recv : (cmd 0x00000E20#32 { idle with ckok := true }).map (fun b => (b.statusWord, b.frameWord))
    = some (0x00000041#32, 0x000E0000#32) := by decide
/-- V-P2. -/
theorem test_recv_1 : (cmd 0x00000120#32 idle).map Block.statusWord = some 0x00000602#32 := by decide
/-- V-P6. -/
theorem test_verify_good : (cmd 0x00000E21#32 { idle with rxbuf := buf respRc }).map (fun b => (b.statusWord, b.acc))
    = some (0x0000000E#32, 0x022C#16) := by decide
/-- V-P8: the high byte alone differs. -/
theorem test_verify_bad : (cmd 0x00000E21#32 { idle with rxbuf := buf (respRc.set 12 0x03#8) }).map Block.statusWord
    = some 0x00000302#32 := by decide
/-- V-P18. -/
theorem test_vfytx_good : (cmd 0x00000922#32 { idle with txbuf := buf cmdRc }).map (fun b => (b.statusWord, b.acc))
    = some (0x0000000E#32, 0x0132#16) := by decide
/-- V-P14. -/
theorem test_getu8 : (cmd 0x00000A23#32 { idle with rxbuf := buf respRc }).map Block.result = some 0x000000F4#32 := by decide
/-- V-P13: the offset need not be even. -/
theorem test_getu16 : (cmd 0x00000D24#32 { idle with rxbuf := buf respRc }).map Block.result = some 0x00002C00#32 := by decide
/-- V-P15. -/
theorem test_getu32 : (cmd 0x00000C25#32 { idle with rxbuf := buf respRc }).map Block.result = some 0x022C0000#32 := by decide
/-- V-P16. -/
theorem test_getu32_13 : (cmd 0x00000D25#32 { idle with result := 7#32 }).map (fun b => (b.statusWord, b.result))
    = some (0x00000602#32, 7#32) := by decide
/-- V-F20: XCHG computes the checksum again. -/
theorem test_xchg_injects : (cmd 0x00000030#32 { loadedRc with txbuf := buf (cmdRc.set 6 0x01#8) }).map
    (fun b => ((b.txbuf.first 9).drop 6, b.statusWord)) = some ([0x01#8, 0x01#8, 0x33#8], 0x00000021#32) := by decide
/-- V-X1. -/
theorem test_xchg_nothing : (cmd 0x00000030#32 idle).map Block.statusWord = some 0x00000602#32 := by decide
/-- V-X12: through offset 8 a zero response is "ready". -/
theorem test_parse_spcStatus : (cmd 0x00000031#32 { loadedRc with kind := 0x05#8 }).map (fun b => (b.statusWord, b.acc))
    = some (0x0000001E#32, 0x0000#16) := by decide
/-- V-X15: status 1. -/
theorem test_parse_readConc_status : (cmd 0x00000031#32
    { loadedRc with conc := 5#32, rxbuf := buf ((respRc.set 11 0x01#8).set 13 0x2D#8) }).map
      (fun b => (b.statusWord, b.conc, b.result)) = some (0x0000040A#32, 5#32, 5#32) := by decide

/-- The frames' meaning: the byte at TXPOS goes out. -/
theorem test_frameReadConc : (next? (exec (.frameReadConc 0x0000#16 0x0132#16)
    (st { loadedRc with phase := .sending, txpos := 4#5 } [] []))).map (fun t => (t.env.txStream, t.blk.txpos))
      = some ([0x03#8], 5#5) := by decide
/-- The last byte of a SEND completes it (R124). -/
theorem test_frameReadConc_last : (next? (exec (.frameReadConc 0x0000#16 0x0132#16)
    (st { loadedRc with phase := .sending, txpos := 8#5 } [] []))).map (fun t => (t.env.txStream, t.blk.statusWord))
      = some ([0x32#8], 0x00000006#32) := by decide
/-- The last byte of an XCHG starts its receive phase of 11 bytes (R124, R170). -/
theorem test_frameSetPressure_last : (next? (exec (.frameSetPressure 0x0002#16 0x02BC#16 0x01F0#16)
    (st { loadedRc with
      phase := .sending, chain := true, txpos := 10#5, txlen := 11#5, kind := 0x01#8,
      txbuf := buf [0x42#8, 0x4D#8, 0xA0#8, 0x00#8, 0x01#8, 0x00#8, 0x02#8, 0x02#8, 0xBC#8, 0x01#8, 0xF0#8] } [] []))).map
        (fun t => (t.env.txStream, t.blk.frameWord)) = some ([0xF0#8], 0x000B0B0B#32) := by decide
theorem test_frameSpcStatus : (next? (exec (.frameSpcStatus 0x0000#16 0x0134#16)
    (st { loadedRc with
      phase := .sending, txpos := 8#5,
      txbuf := buf [0x42#8, 0x4D#8, 0xA0#8, 0x00#8, 0x05#8, 0x00#8, 0x00#8, 0x01#8, 0x34#8] } [] []))).map
        (fun t => t.env.txStream) = some [0x34#8] := by decide
theorem test_frameSetSpc : (next? (exec (.frameSetSpc 0x0004#16 0x0190#16 0x01C8#16)
    (st { loadedRc with
      phase := .sending, txpos := 10#5, txlen := 13#5,
      txbuf := buf [0x42#8, 0x4D#8, 0xA0#8, 0x00#8, 0x04#8, 0x00#8, 0x04#8, 0x00#8, 0x00#8, 0x01#8, 0x90#8, 0x01#8, 0xC8#8] }
        [] []))).map (fun t => t.env.txStream) = some [0x90#8] := by decide

/-! ## One step of each event, and the host's accesses -/

/-- V-X3, the last byte. -/
theorem test_rxByte_readConc : (ev .rxByte (lastByte (respRc.take 13)) [0x2C#8]).map
    (fun b => (b.statusWord, b.frameWord, b.conc, b.result, b.rxbuf.first 14))
      = some (0x0000100E#32, 0x0E0E0909#32, 500#32, 500#32, respRc) := by decide
/-- L1.5, the corrupted last byte. -/
theorem test_rxByte_checksum : (ev .rxByte { lastByte (respRc.take 13) with conc := 500#32, warm := true } [0x2D#8]).map
    (fun b => (b.statusWord, b.conc, b.result, b.rxbuf)) = some (0x00001302#32, 500#32, 500#32, buf []) := by decide
/-- V-P5. -/
theorem test_timeout : (ev .timeout { idle with phase := .receiving, rxlen := 14#5, rxcnt := 13#5 } []).map
    (fun b => (b.statusWord, b.frameWord)) = some (0x00000202#32, 0x0D0E0000#32) := by decide
/-- V-H5: a write while busy is dropped. -/
theorem test_drop : (ev (.hostWr 0x40 .word 7#32) { idle with phase := .receiving, rxlen := 2#5 } []).map
    (fun b => (b.txbuf, b.statusWord)) = some (buf [], 0x00010041#32) := by decide
/-- V-H7: CLRDROP while busy. -/
theorem test_clrdrop : (ev (.hostWr 0x04 .word 0x00010000#32) { idle with phase := .receiving, rxlen := 2#5, drop := true }
    []).map Block.statusWord = some 0x00000041#32 := by decide
/-- V-H4. -/
theorem test_write_txbuf : (ev (.hostWr 0x40 .word 0x000001FF#32) idle []).map Block.txbuf = some (buf [0xFF#8]) := by decide
/-- V-H8: RESET clears what the block holds. -/
theorem test_reset : (ev .reset { lastByte (respRc.take 13) with conc := 500#32, warm := true, drop := true } []).map
    (fun b => (b.statusWord, b.frameWord, b.kindWord, b.acc, b.conc)) = some (0#32, 0#32, 0#32, 0#16, 0#32) := by decide
/-- A read returns the register and changes nothing else (R63, R66). -/
theorem test_read_frame : (next? (step (st (lastByte []) [.hostRd 0x14 .word] []))).map
    (fun t => (t.env.hostReads, t.blk == lastByte [])) = some ([0x0D0E0909#32], true) := by decide
/-- V-H9. -/
theorem test_byte_access_refused : step (st idle [.hostRd 0x00 .byte] []) = .refused .busAccess := rfl
theorem test_offset_2_refused : step (st idle [.hostWr 0x02 .word 0#32] []) = .refused .busAccess := rfl
theorem test_outside_refused : step (st idle [.hostRd 0x100 .word] []) = .refused .outsideBlock := rfl

/-- The example of R90. -/
theorem test_line_ldcmd : lineOf 0 (.ldcmd 0x01#8 1013#16) = [.hostWr 0x00 .word 0x03F50111#32] := by decide
/-- READCONC of R91, with two reads in its POLL. -/
theorem test_pseudo_readconc : Pseudo.readconc.lines 0 2 true =
    [.hostWr 0x00 .word 0x00000311#32, .hostWr 0x00 .word 0x00000030#32, .hostRd 0x04 .word, .hostRd 0x04 .word] := by decide

/-! ## The first instruction after reset -/

theorem test_first_step_nop : ∃ t, step (State.reset.withFetchWord 32 0x00) = .next t ∧ t.blk.statusWord = 0x00000006#32 :=
  ⟨_, rfl, by decide⟩
theorem test_first_step_frame : ∃ t, step (State.reset.withFetchWord 72 0x0300A04D42) = .next t ∧
    t.env.txStream = [0x42#8] ∧ t.blk.txpos = 1#5 :=
  ⟨_, rfl, by decide, by decide⟩

/-! ## Witnesses: states and operands that meet all hypotheses of each statement, clauses at their boundary values -/

/-- A state with the idle block. -/
def sIdle : State := st idle [] []

/-- An idle block that LDCMD has loaded, its RXBUF holding a response. -/
def parsing (kind : Byte) (resp : List Byte) : State := st { loadedRc with kind := kind, rxbuf := buf resp } [] []

theorem witness_NopCompletesAndCkclrClearsAcc : sIdle.blk.phase = .idle := rfl
theorem witness_CkaddAddsByteWithWrap : (st { idle with acc := 0xFFFF#16 } [] []).blk.phase = .idle := rfl
theorem witness_CktxSumsTxbuf : sIdle.blk.phase = .idle ∧ (16#8).toNat ≤ 16 ∧ 16 < (17#8).toNat := by decide
theorem witness_CkrxSumsRxbuf : sIdle.blk.phase = .idle ∧ (0#8).toNat ≤ 16 ∧ 16 < (255#8).toNat := by decide
theorem witness_UnmappedOpIsIllegal : sIdle.blk.phase = .idle ∧ fieldOp 0x34561205#32 ∉ opcodes ∧ fieldOp 0x31#32 ∈ opcodes ∧
    fieldOp 0x00000611#32 = 0x11#8 ∧ fieldA 0x00000611#32 ∉ [0x01#8, 0x03#8, 0x04#8, 0x05#8] := by decide
theorem witness_SumLaws :
    ([0xFF#8, 0x01#8] : List Byte).length ≤ 257 ∧ (0x02#8) ≠ ([0xFF#8, 0x01#8] : List Byte)[1] ∧
      ([0x00#8, 0xFF#8] : List Byte)[0].toNat + (0xFF#8).toNat ≤ 255 ∧
      (0xFF#8).toNat ≤ ([0x00#8, 0xFF#8] : List Byte)[1].toNat := by decide
theorem witness_BuildInjectsChecksum :
    sIdle.blk.phase = .idle ∧ (2 ≤ (2#8).toNat ∧ (2#8).toNat ≤ 16) ∧ (2 ≤ (16#8).toNat ∧ (16#8).toNat ≤ 16) ∧
      (1#8).toNat < 2 ∧ 16 < (17#8).toNat := by decide
theorem witness_LdcmdLoadsReadConcFrame : sIdle.blk.phase = .idle := rfl
theorem witness_LdcmdLoadsSetPressureFrame :
    sIdle.blk.phase = .idle ∧ 700 ≤ (700#16).toNat ∧ (700#16).toNat ≤ 1100 ∧ 700 ≤ (1100#16).toNat ∧ (1100#16).toNat ≤ 1100 := by
  decide
theorem witness_LdcmdLoadsSpcStatusFrame : sIdle.blk.phase = .idle := rfl
theorem witness_LdcmdLoadsSetSpcFrame :
    sIdle.blk.phase = .idle ∧ 400 ≤ (400#16).toNat ∧ (400#16).toNat ≤ sIdle.params.spcMax.val.toNat ∧
      400 ≤ (2000#16).toNat ∧ (2000#16).toNat ≤ sIdle.params.spcMax.val.toNat := by decide
theorem witness_LdcmdRejectsBadOperands :
    sIdle.blk.phase = .idle ∧ (0x02#8) ∉ [0x01#8, 0x03#8, 0x04#8, 0x05#8] ∧ (699#16).toNat < 700 ∧ 1100 < (1101#16).toNat ∧
      (399#16).toNat < 400 ∧ sIdle.params.spcMax.val.toNat < (2001#16).toNat := by decide
theorem witness_SendStartsSendPhase :
    sIdle.blk.phase = .idle ∧ sIdle.blk.txlen = 0#5 ∧ (st loadedRc [] []).blk.phase = .idle ∧
      (st loadedRc [] []).blk.txlen ≠ 0#5 := by decide
theorem witness_BuiltFramesVerify :
    sIdle.blk.phase = .idle ∧ 2 ≤ (16#8).toNat ∧ (16#8).toNat ≤ 16 ∧ (next? (exec (.build 16#8 0#16) sIdle)).isSome ∧
      Kind.ofByte? 0x04#8 = some .setSpc ∧
      (next? (exec (.ldcmd 0x04#8 400#16) sIdle)).map (fun t => t.blk.ok) = some true := by decide

/-- The READ_CONC frame in flight at position `n`. -/
def sending (n : Pos) (chain : Bool) (ins : List Input) : State :=
  st { loadedRc with phase := .sending, txpos := n, chain := chain, done := false, ok := false } ins []

theorem witness_TxaccSendsByteAtTxpos :
    (sending 7#5 false [.txAcc]).env.inputs = .txAcc :: [] ∧ (sending 7#5 false [.txAcc]).blk.phase = .sending ∧
      (sending 7#5 false [.txAcc]).blk.txpos.toNat + 1 ≠ (sending 7#5 false [.txAcc]).blk.txlen.toNat ∧
      (sending 8#5 true [.txAcc]).blk.txpos.toNat < 16 ∧
      (sending 8#5 true [.txAcc]).blk.txpos.toNat + 1 = (sending 8#5 true [.txAcc]).blk.txlen.toNat ∧
      Kind.ofByte? (sending 8#5 true [.txAcc]).blk.kind = some .readConc := by decide
theorem witness_FrameRowsSendTheirBytes :
    encode (.frameReadConc 0x0000#16 0x0132#16) = .wire cmdRc ∧ (sending 0#5 false []).blk.phase = .sending ∧
      (sending 0#5 false []).blk.txlen.toNat = cmdRc.length ∧
      (sending 0#5 false []).blk.txbuf.toList.take cmdRc.length = cmdRc ∧
      (sending 0#5 false []).blk.txpos.toNat + 1 < cmdRc.length ∧ (sending 8#5 true []).blk.txpos.toNat + 1 = cmdRc.length ∧
      Kind.ofByte? (sending 8#5 true []).blk.kind = some .readConc := by decide
theorem witness_LdcmdLoadsWellFormedFrame :
    sIdle.blk.phase = .idle ∧ (next? (exec (.ldcmd 0x01#8 1100#16) sIdle)).map (fun t => t.blk.ok) = some true := by decide

/-- The whole READ_CONC frame to be accepted, then a RESET. -/
def sendAll : State := sending 0#5 false (List.replicate 9 .txAcc ++ [.reset])

theorem witness_SendPhaseEmitsWholeFrame :
    sendAll.blk.phase = .sending ∧ sendAll.blk.chain = false ∧ sendAll.blk.txpos = 0#5 ∧ 0 < sendAll.blk.txlen.toNat ∧
      sendAll.blk.txlen.toNat ≤ 16 ∧ sendAll.env.inputs = List.replicate sendAll.blk.txlen.toNat .txAcc ++ [.reset] := by decide
/-- A frame of the full 16 bytes. -/
theorem witness_SendPhaseEmitsWholeFrame_16 :
    (st { loadedRc with phase := .sending, txlen := 16#5 } (List.replicate 16 .txAcc) []).blk.txlen.toNat ≤ 16 ∧
      (st { loadedRc with phase := .sending, txlen := 16#5 } (List.replicate 16 .txAcc) []).env.inputs
        = List.replicate (st { loadedRc with phase := .sending, txlen := 16#5 } (List.replicate 16 .txAcc) []).blk.txlen.toNat
            .txAcc ++ [] := by decide

/-- A sink that never accepts: a dropped write, a timeout and a byte arriving while the frame is in flight. -/
def hanging : State := sending 3#5 true [.hostWr 0x08 .word 1#32, .timeout, .rxArrive 0x42#8]

theorem witness_TransmitHangKeepsBusy :
    hanging.blk.phase = .sending ∧ (∀ x ∈ hanging.env.inputs, x.isStall) ∧ (next? (run 3 hanging)).isSome := by decide
theorem witness_RecvStartsReceivePhase :
    sIdle.blk.phase = .idle ∧ 2 ≤ (2#8).toNat ∧ (16#8).toNat ≤ 16 ∧ (1#8).toNat < 2 ∧ 16 < (17#8).toNat := by decide
theorem witness_VerifyComparesRxbuf :
    (st { idle with rxbuf := buf respRc } [] []).blk.phase = .idle ∧ (2 ≤ (14#8).toNat ∧ (14#8).toNat ≤ 16) ∧
      (buf respRc).goodFrame ⟨14, by decide⟩ ∧ ¬ (buf (respRc.set 13 0x2D#8)).goodFrame ⟨14, by decide⟩ ∧
      (buf []).goodFrame ⟨2, by decide⟩ ∧ ¬ (buf respRc).goodFrame ⟨16, by decide⟩ ∧
      (1#8).toNat < 2 ∧ 16 < (17#8).toNat := by decide
theorem witness_VfytxComparesTxbuf :
    (st loadedRc [] []).blk.phase = .idle ∧ (2 ≤ (9#8).toNat ∧ (9#8).toNat ≤ 16) ∧
      (st loadedRc [] []).blk.txbuf.goodFrame ⟨9, by decide⟩ ∧ ¬ (st loadedRc [] []).blk.txbuf.goodFrame ⟨2, by decide⟩ ∧
      (0#8).toNat < 2 ∧ 16 < (17#8).toNat := by decide
theorem witness_Getu8ExtractsByte : sIdle.blk.phase = .idle ∧ (15#8).toNat < 16 ∧ 15 < (16#8).toNat := by decide
theorem witness_Getu16ExtractsBigEndian : sIdle.blk.phase = .idle ∧ (14#8).toNat + 1 < 16 ∧ 14 < (15#8).toNat := by decide
theorem witness_Getu32ExtractsBigEndian : sIdle.blk.phase = .idle ∧ (12#8).toNat + 3 < 16 ∧ 12 < (13#8).toNat := by decide

/-- A RECV of 14 bytes at its beginning. -/
def receiving (ins : List Input) (fifo : List Byte) : State :=
  st { idle with phase := .receiving, rxlen := 14#5 } ins fifo

theorem witness_RxbyteCollectsIntoShadow :
    (receiving [.rxByte] [0x42#8]).env.inputs = .rxByte :: [] ∧ (receiving [.rxByte] [0x42#8]).env.rxFifo = 0x42#8 :: [] ∧
      (receiving [.rxByte] [0x42#8]).blk.phase = .receiving ∧ (receiving [.rxByte] [0x42#8]).blk.rxcnt.toNat < 16 ∧
      (receiving [.rxByte] [0x42#8]).blk.rxcnt.toNat + 1 ≠ (receiving [.rxByte] [0x42#8]).blk.rxlen.toNat := by decide

/-- A whole RECV of RESP_RC and one byte more. -/
def receiveAll (resp : List Byte) : State := receiving (List.replicate 14 .rxByte) (resp ++ [0x55#8])

theorem witness_ReceivePhaseDeliversOnlyGoodFrames :
    (receiveAll respRc).blk.phase = .receiving ∧ (receiveAll respRc).blk.chain = false ∧ (receiveAll respRc).blk.rxcnt = 0#5 ∧
      2 ≤ (receiveAll respRc).blk.rxlen.toNat ∧ (receiveAll respRc).blk.rxlen.toNat ≤ 16 ∧
      respRc.length = (receiveAll respRc).blk.rxlen.toNat ∧ (receiveAll respRc).env.rxFifo = respRc ++ [0x55#8] ∧
      (receiveAll respRc).env.inputs = List.replicate respRc.length .rxByte ++ [] ∧
      respRc.drop 12 = [hi (sum16 (respRc.take 12)), lo (sum16 (respRc.take 12))] := by decide
/-- The branch of a mismatch: the last byte is 2D, the sum 0x022C. -/
theorem witness_ReceivePhaseDeliversOnlyGoodFrames_mismatch :
    let bad := respRc.set 13 0x2D#8
    (receiveAll bad).blk.phase = .receiving ∧ (receiveAll bad).blk.chain = false ∧ (receiveAll bad).blk.rxcnt = 0#5 ∧
      bad.length = (receiveAll bad).blk.rxlen.toNat ∧ (receiveAll bad).env.rxFifo = bad ++ [0x55#8] ∧
      (receiveAll bad).env.inputs = List.replicate bad.length .rxByte ++ [] ∧
      bad.drop 12 ≠ [hi (sum16 (bad.take 12)), lo (sum16 (bad.take 12))] := by decide
theorem witness_TimeoutEndsReceivePhase :
    (receiving [.timeout] []).env.inputs = .timeout :: [] ∧ (receiving [.timeout] []).blk.phase = .receiving ∧
      (lastByte []).phase = .receiving ∧ (lastByte []).chain = true ∧ (lastByte []).kind = 0x03#8 := by decide
theorem witness_DisabledEventsHaveNoEffect :
    (st idle [.timeout] []).env.inputs = .timeout :: [] ∧ (st idle [.txAcc] []).env.inputs = .txAcc :: [] ∧
      (st idle [.rxByte] [0x42#8]).env.inputs = .rxByte :: [] ∧ idle.phase ≠ .receiving ∧ idle.phase ≠ .sending ∧
      (receiving [.rxByte] []).env.inputs = .rxByte :: [] ∧ (receiving [.rxByte] []).env.rxFifo = [] := by decide
theorem witness_XchgStartsExchange :
    sIdle.blk.phase = .idle ∧ sIdle.blk.kvalid = false ∧ (st loadedRc [] []).blk.phase = .idle ∧
      (st loadedRc [] []).blk.kvalid = true ∧ 2 ≤ (st loadedRc [] []).blk.txlen.toNat ∧
      (st loadedRc [] []).blk.txlen.toNat ≤ 16 := by decide

/-- The READ_CONC response of V-X4, status 1. -/
def respRcBusy : List Byte := (respRc.set 11 0x01#8).set 13 0x2D#8

theorem witness_ParseDecodesReadConc :
    (parsing 0x03#8 respRc).blk.phase = .idle ∧ (parsing 0x03#8 respRc).blk.kvalid = true ∧
      (parsing 0x03#8 respRc).blk.kind = 0x03#8 ∧ (parsing 0x03#8 respRc).blk.rxbuf.goodFrame ⟨14, by decide⟩ ∧
      (parsing 0x03#8 respRc).blk.rxbuf[11] = 0x00#8 ∧ (parsing 0x03#8 respRcBusy).blk.rxbuf.goodFrame ⟨14, by decide⟩ ∧
      (parsing 0x03#8 respRcBusy).blk.rxbuf[11] ≠ 0x00#8 := by decide

/-- The SET_PRESSURE response of V-X9. -/
def respSp : List Byte := [0x42#8, 0x4D#8, 0xA0#8, 0x00#8, 0x01#8, 0x00#8, 0x00#8, 0x00#8, 0x00#8, 0x01#8, 0x30#8]

theorem witness_ParseDecodesSetPressure :
    (parsing 0x01#8 respSp).blk.phase = .idle ∧ (parsing 0x01#8 respSp).blk.kvalid = true ∧
      (parsing 0x01#8 respSp).blk.kind = 0x01#8 ∧ (parsing 0x01#8 respSp).blk.rxbuf.goodFrame ⟨11, by decide⟩ := by decide

/-- The SPC_STATUS response of V-X10. -/
def respSpc : List Byte := [0x42#8, 0x4D#8, 0xA0#8, 0x00#8, 0x05#8, 0x00#8, 0x01#8, 0x00#8, 0x01#8, 0x35#8]

theorem witness_ParseDecodesSpcStatus :
    (parsing 0x05#8 respSpc).blk.phase = .idle ∧ (parsing 0x05#8 respSpc).blk.kvalid = true ∧
      (parsing 0x05#8 respSpc).blk.kind = 0x05#8 ∧ (parsing 0x05#8 respSpc).blk.rxbuf.goodFrame ⟨10, by decide⟩ ∧
      (parsing 0x05#8 respSpc).blk.rxbuf[8] ≠ 0x00#8 ∧ (parsing 0x05#8 []).blk.rxbuf.goodFrame ⟨10, by decide⟩ ∧
      (parsing 0x05#8 []).blk.rxbuf[8] = 0x00#8 ∧ Params.default.spcReadyOff.val = 8 := by decide

/-- The SET_SPC responses of V-X13 and V-X14: the flag at offset 7 is `f`. -/
def respSet (f : Byte) : List Byte :=
  [0x42#8, 0x4D#8, 0xA0#8, 0x00#8, 0x04#8, 0x00#8, 0x01#8, f, 0x01#8, 0x34#8 + f]

theorem witness_ParseDecodesSetSpc :
    (parsing 0x04#8 (respSet 0x01#8)).blk.phase = .idle ∧ (parsing 0x04#8 (respSet 0x01#8)).blk.kvalid = true ∧
      (parsing 0x04#8 (respSet 0x01#8)).blk.kind = 0x04#8 ∧
      (parsing 0x04#8 (respSet 0x01#8)).blk.rxbuf.goodFrame ⟨10, by decide⟩ ∧
      (parsing 0x04#8 (respSet 0x01#8)).blk.rxbuf[7] ≠ 0x00#8 ∧
      (parsing 0x04#8 (respSet 0x00#8)).blk.rxbuf.goodFrame ⟨10, by decide⟩ ∧
      (parsing 0x04#8 (respSet 0x00#8)).blk.rxbuf[7] = 0x00#8 := by decide
theorem witness_ParseReportsFailures :
    sIdle.blk.phase = .idle ∧ sIdle.blk.kvalid = false ∧ (parsing 0x03#8 respSp).blk.phase = .idle ∧
      (parsing 0x03#8 respSp).blk.kvalid = true ∧ Kind.ofByte? (parsing 0x03#8 respSp).blk.kind = some .readConc ∧
      ¬ (parsing 0x03#8 respSp).blk.rxbuf.goodFrame (rspLen .readConc) := by decide

/-- An exchange waiting for the last byte of RESP_RC, which comes as `x`. -/
def closingWith (x : Byte) : State := st (lastByte (respRc.take 13)) [.rxByte] [x]

/-- The last byte is the right one. -/
def closing : State := closingWith 0x2C#8

theorem witness_ExchangeEndsAsParseDoes :
    closing.blk.Inv ∧ closing.env.inputs = .rxByte :: [] ∧ closing.env.rxFifo = 0x2C#8 :: [] ∧
      closing.blk.phase = .receiving ∧ closing.blk.chain = true ∧ closing.blk.rxcnt.toNat + 1 = closing.blk.rxlen.toNat ∧
      closing.blk.rxcnt.toNat = 13 ∧ closing.blk.rxlen.toNat = 14 ∧
      Buf.goodFrame (closing.blk.shadow.set 13 0x2C#8) ⟨14, by decide⟩ := by decide
/-- The branch of a mismatch: the last byte is 2D. -/
theorem witness_ExchangeEndsAsParseDoes_mismatch :
    let s := closingWith 0x2D#8
    s.blk.Inv ∧ s.env.inputs = .rxByte :: [] ∧ s.env.rxFifo = 0x2D#8 :: [] ∧ s.blk.phase = .receiving ∧ s.blk.chain = true ∧
      s.blk.rxcnt.toNat + 1 = s.blk.rxlen.toNat ∧ s.blk.rxcnt.toNat = 13 ∧ s.blk.rxlen.toNat = 14 ∧
      ¬ Buf.goodFrame (s.blk.shadow.set 13 0x2D#8) ⟨14, by decide⟩ := by decide

/-- A whole reading: the XCHG word, nine acceptances, fourteen bytes. -/
def reading : State :=
  st loadedRc (.hostWr 0 .word 0x00000030#32 :: (List.replicate 9 .txAcc ++ (List.replicate 14 .rxByte ++ [])))
    (respRc ++ [0x55#8])

theorem witness_ReadConcExchangeUpdatesReading :
    reading.blk.phase = .idle ∧ reading.blk.kvalid = true ∧ reading.blk.kind = 0x03#8 ∧ reading.blk.txlen = 9#5 ∧
      fieldOp 0x00000030#32 = 0x30#8 ∧
      reading.env.inputs = .hostWr reading.params.base .word 0x00000030#32 ::
        (List.replicate 9 .txAcc ++ (List.replicate 14 .rxByte ++ [])) ∧
      reading.env.rxFifo = respRc ++ [0x55#8] ∧ respRc.length = 14 ∧
      (respRc.drop 7).take 5 = [0x00#8, 0x00#8, 0x01#8, 0xF4#8, 0x00#8] ∧
      respRc.drop 12 = [hi (sum16 (respRc.take 12)), lo (sum16 (respRc.take 12))] := by decide
theorem witness_StandardHeaderNeverReady :
    (parsing 0x05#8 respSpc).params.spcReadyOff = 8 ∧ (parsing 0x05#8 respSpc).blk.phase = .idle ∧
      (parsing 0x05#8 respSpc).blk.kvalid = true ∧ (parsing 0x05#8 respSpc).blk.kind = 0x05#8 ∧
      (parsing 0x05#8 respSpc).blk.rxbuf[0] = 0x42#8 ∧ (parsing 0x05#8 respSpc).blk.rxbuf[1] = 0x4D#8 ∧
      (parsing 0x05#8 respSpc).blk.rxbuf[2] = 0xA0#8 ∧
      (next? (exec (.parse 0#8 0#16) (parsing 0x05#8 respSpc))).isSome := by decide

/-- The host writes `v` at the offset `off` of an instance whose BASE is not 0. -/
def writing (off : Nat) (b : Block) : State :=
  { st b [.hostWr (0x4000 + off) .word 0x00010005#32] [] with params := { Params.default with base := 0x4000 } }

theorem witness_HostWritesReachTheirRegister :
    (writing 0x04 idle).env.inputs = .hostWr ((writing 0x04 idle).params.base + 0x04) .word 0x00010005#32 :: [] ∧
      (writing 0x08 idle).blk.phase = .idle ∧ 0x40 + 4 * 15 = 0x7C ∧ 0x80 + 4 * 15 = 0xBC ∧ 0x18 ∈ [0x0C, 0x10, 0x14, 0x18] ∧
      0x1C % 4 = 0 ∧ 0x3C % 4 = 0 ∧ 0xC0 % 4 = 0 ∧ 0xFC % 4 = 0 := by decide
theorem witness_BusyWritesAreDropped :
    (writing 0xBC (lastByte [])).env.inputs
        = .hostWr ((writing 0xBC (lastByte [])).params.base + 0xBC) .word 0x00010005#32 :: [] ∧
      (writing 0xBC (lastByte [])).blk.phase ≠ .idle ∧ 0xBC % 4 = 0 ∧ 0x40 ≤ 0xBC ∧ 0xBC < 0xC0 ∧ 0x08 % 4 = 0 := by decide
theorem witness_HostReadsReturnRegisters :
    (st idle [.hostRd (0 + 0xFC) .word] []).env.inputs = .hostRd (Params.default.base + 0xFC) .word :: [] ∧
      0xFC < 0x100 ∧ 0xFC % 4 = 0 ∧ 0x40 + 4 * 15 < 0x80 ∧ 0x80 + 4 * 15 < 0xC0 := by decide
theorem witness_BadAccessesAreRefused :
    (st idle [.hostRd 0x02 .word] []).env.inputs = .hostRd 0x02 .word :: [] ∧ Params.default.base ≤ 0xFF ∧
      0xFF < Params.default.base + 0x100 ∧ (0xFF - Params.default.base) % 4 ≠ 0 ∧ AccessSize.byte ≠ .word ∧
      (writing 0 idle).params.base + 0x100 ≤ 0x4100 ∧ 0x3FFF < (writing 0 idle).params.base := by decide
theorem witness_ShadowIsHidden :
    (st (lastByte []) [.timeout] []).env.inputs.head? ≠ some .rxByte ∧
      (next? (step (st (lastByte []) [.timeout] []))).isSome := by decide
theorem witness_ResetRestoresEveryRegister : (st (lastByte []) [.reset] []).env.inputs = .reset :: [] := rfl

/-- The invariant holds of busy blocks too, and steps of them answer. -/
theorem witness_EveryStepKeepsInvariants :
    closing.blk.Inv ∧ (next? (step closing)).isSome ∧ hanging.blk.Inv ∧ (next? (step hanging)).isSome :=
  ⟨by decide, by decide, by decide, by decide⟩
theorem witness_InvariantStatesNeverFault : closing.blk.Inv ∧ reading.blk.Inv ∧ sendAll.blk.Inv :=
  ⟨by decide, by decide, by decide⟩
theorem witness_ConcOnlyFromVerifiedReading :
    closing.blk.Inv ∧ (next? (step closing)).map (fun t => t.blk.conc) = some 500#32 ∧ closing.blk.conc ≠ 500#32 := by decide
theorem witness_WarmMeansAReadingArrived :
    (next? (step closing)).map (fun t => t.blk.warm) = some true ∧ closing.env.inputs.head? ≠ some .reset ∧
      closing.blk.warm = false ∧ closing.blk.conc = 0#32 := by decide
theorem witness_RxbufOnlyFromHostOrVerifiedResponse :
    (next? (step closing)).map (fun t => t.blk.rxbuf) = some (buf respRc) ∧ buf respRc ≠ closing.blk.rxbuf ∧
      (next? (step (writing 0xBC idle))).map (fun t => t.blk.rxbuf[15]) = some 0x05#8 := by decide
theorem witness_CkokDiscipline :
    (parsing 0x03#8 respRc).blk.phase = .idle ∧ (next? (exec (decodeCmd 0x00000031#32) (parsing 0x03#8 respRc))).isSome ∧
      fieldOp 0x00000031#32 = 0x31#8 ∧ fieldOp 0x00000E21#32 = 0x21#8 ∧ fieldOp 0x00000922#32 = 0x22#8 ∧
      fieldOp 0x00000E20#32 ∈ [0x20#8, 0x30#8] ∧ fieldOp 0#32 ∉ [0x20#8, 0x21#8, 0x22#8, 0x30#8, 0x31#8] := by decide
theorem witness_ErrorLeavesCachedState :
    sIdle.blk.phase = .idle ∧
      (next? (exec (decodeCmd 0x00000211#32) sIdle)).map (fun t => t.blk.err) = some .illegal := by decide
theorem witness_DropIsSticky :
    (writing 0x04 { idle with drop := true }).blk.drop = true ∧
      (next? (step (writing 0x04 { idle with drop := true }))).map (fun t => t.blk.drop) = some false := by decide
theorem witness_StreamsMoveOneByteAtATime :
    sendAll.env.inputs.head? = some .txAcc ∧ sendAll.blk.phase = .sending ∧ (next? (step sendAll)).isSome ∧
      closing.env.inputs.head? = some .rxByte ∧ closing.blk.phase = .receiving ∧ (next? (step closing)).isSome ∧
      (st idle [.rxArrive 0x42#8] []).env.inputs.head? = some (.rxArrive 0x42#8) ∧
      (next? (step (st idle [.rxArrive 0x42#8] []))).isSome ∧
      idle.phase ≠ .receiving ∧ idle.phase ≠ .sending ∧ (next? (step (st idle [.rxByte, .txAcc] [0x42#8]))).isSome := by decide
theorem witness_DecodeOfEncode :
    (Instr.frameSetSpc 0x0004#16 400#16 0x01C8#16).wf Params.default = true ∧
      (Instr.illegal 0xFF#8 0#8 0#16).wf Params.default = true := by decide
theorem witness_EncodeOfDecode : decode (.wire cmdRc) = .ok (.frameReadConc 0x0000#16 0x0132#16) := rfl
theorem witness_IgnoredFieldsDoNotMatter :
    fieldOp 0xFFFF0311#32 = fieldOp 0x00000311#32 ∧ fieldA 0xFFFF0311#32 = fieldA 0x00000311#32 ∧
      fieldA 0xFFFF0311#32 ∉ [0x01#8, 0x04#8] := by decide
theorem witness_StepRunsDecodedInstruction :
    reading.env.inputs.head? = some (.hostWr reading.params.base .word 0x00000030#32) ∧
      decode (.cmd 0x00000030#32) = .ok (.xchg 0#8 0#16) ∧ sendAll.env.inputs.head? = some .txAcc ∧
      sendAll.blk.phase = .sending ∧
      decode (.wire (sendAll.blk.txbuf.toList.take sendAll.blk.txlen.toNat)) = .ok (.frameReadConc 0x0000#16 0x0132#16) := by
  exact ⟨rfl, rfl, rfl, rfl, rfl⟩

end Sys2Proof.Tests
end

/-! SUPPORT. What each kind of event can answer, once: a command word of an idle block by the shape of the block it leaves, the
last byte of a response, the byte of a TXACC or RXBYTE event, and what completing an operation writes. -/

namespace Sys2Proof

/-- The word a command word's instruction encodes to is the word itself (30_encoding.md R80, R83). -/
theorem encode_decodeCmd (v : Word) : encode (decodeCmd v) = .cmd v := by
  have hw : ∀ op : Byte, (fieldOp v).toNat = op.toNat → Code.cmd (cmdWord op (fieldA v) (fieldImm v)) = .cmd v := by
    intro op h
    rw [← BitVec.eq_of_toNat_eq h, cmdWord_fields]
  unfold decodeCmd
  split
  case h_17 => exact hw _ rfl
  all_goals exact hw _ ‹_›

namespace Machine

/-- What a command word can make of an idle block `b` that begin_op has prepared (30_encoding.md R84). -/
inductive Block.Issued (P : Params) (b : Block) : Block → Prop
  /-- NOP, CKCLR, CKADD, CKTX, CKRX, GETU8, GETU16, GETU32. -/
  | computes (a : Half) (r : Word) : Issued P b ({ b with acc := a, result := r }.complete true .none)
  /-- BUILD. -/
  | builds (L : FrameLen) : Issued P b ((b.buildFrame L).complete true .none)
  /-- LDCMD. -/
  | loads (k : Kind) (imm : Half) : Issued P b ((b.loadFrame P k imm).complete true .none)
  /-- LDCMD of an unknown kind or of a parameter out of range. -/
  | loadFails (e : ErrCode) : Issued P b ({ b with kvalid := false }.raise e)
  /-- An operand out of range, or an OP outside the map. -/
  | raises (e : ErrCode) : Issued P b (b.raise e)
  /-- An operation that clears CKOK, with an operand out of range or no loaded command. -/
  | raisesCleared (e : ErrCode) : Issued P b (b.clearCkok.raise e)
  /-- SEND. -/
  | sends (hlen : b.txlen ≠ 0#5) : Issued P b { b with txpos := 0#5, chain := false, phase := .sending }
  /-- RECV. -/
  | receives (L : FrameLen) : Issued P b ({ b.clearCkok with chain := false }.startRx L)
  /-- VERIFY, VFYTX. -/
  | verifies (B : Buf) (L : FrameLen) : Issued P b (b.clearCkok.verified B L)
  /-- XCHG. -/
  | exchanges (L : FrameLen) (hv : b.kvalid = true) (hL : frameLen? b.txlen.toNat = some L) :
    Issued P b { b.clearCkok.inject L with txpos := 0#5, chain := true, phase := .sending }
  /-- PARSE. -/
  | parses (k : Kind) (hv : b.kvalid = true) (hk : Kind.ofByte? b.kind = some k) :
    Issued P b (b.clearCkok.parseFrame P k)

/-- An operation whose answer to the prepared block has one of the shapes. -/
theorem issue_issued {op : Block → Block} {s t : State} (hi : s.blk.phase = .idle)
    (h : Host.Outcome.next (issue s op) = (.next t : Host.Outcome State Fault Refusal))
    (hop : s.blk.beginOp.Issued s.params (op s.blk.beginOp)) :
    ∃ c, s.blk.beginOp.Issued s.params c ∧ t = s.withBlk c := by
  rw [issue_idle _ hi] at h
  cases h
  exact ⟨_, hop, rfl⟩

/-- XCHG with no loaded command reports BAD_ARG (43_exchange_and_commands.md R175). -/
theorem exec_xchg_unloaded {s : State} (a : Byte) (imm : Half) (hi : s.blk.phase = .idle) (hv : s.blk.kvalid ≠ true) :
    exec (.xchg a imm) s = .next (s.withBlk (s.blk.beginOp.clearCkok.raise .badArg)) := by
  simp [exec, execXchg, issueChecked_idle _ hi, hv]

/-- PARSE with no loaded command reports BAD_ARG (43_exchange_and_commands.md R176). -/
theorem exec_parse_unloaded {s : State} (a : Byte) (imm : Half) (hi : s.blk.phase = .idle) (hv : s.blk.kvalid ≠ true) :
    exec (.parse a imm) s = .next (s.withBlk (s.blk.beginOp.clearCkok.raise .badArg)) := by
  simp [exec, execParse, issueChecked_idle _ hi, hv]

/-- Everything XCHG of an idle block can answer (43_exchange_and_commands.md R175). -/
theorem exec_xchg_cases {a : Byte} {imm : Half} {s t : State} (hi : s.blk.phase = .idle)
    (h : exec (.xchg a imm) s = .next t) :
    t = s.withBlk (s.blk.beginOp.clearCkok.raise .badArg) ∨
    (s.blk.kvalid = true ∧ ∃ L, frameLen? s.blk.txlen.toNat = some L ∧
      t = s.withBlk { s.blk.beginOp.clearCkok.inject L with txpos := 0#5, chain := true, phase := .sending }) := by
  by_cases hv : s.blk.kvalid = true
  · right
    cases hL : frameLen? s.blk.txlen.toNat with
    | none => simp [exec, execXchg, issueChecked_idle _ hi, hv, hL] at h
    | some L =>
      rw [exec_xchg a imm hi hv (frameLen?_val hL).symm] at h
      cases h
      exact ⟨hv, L, rfl, rfl⟩
  · left
    rw [exec_xchg_unloaded a imm hi hv] at h
    cases h
    rfl

/-- Everything PARSE of an idle block can answer (43_exchange_and_commands.md R176). -/
theorem exec_parse_cases {a : Byte} {imm : Half} {s t : State} (hi : s.blk.phase = .idle)
    (h : exec (.parse a imm) s = .next t) :
    (s.blk.kvalid ≠ true ∧ t = s.withBlk (s.blk.beginOp.clearCkok.raise .badArg)) ∨
    (s.blk.kvalid = true ∧ ∃ k, Kind.ofByte? s.blk.kind = some k ∧
      t = s.withBlk (s.blk.beginOp.clearCkok.parseFrame s.params k)) := by
  by_cases hv : s.blk.kvalid = true
  · right
    cases hk : Kind.ofByte? s.blk.kind with
    | none => simp [exec, execParse, issueChecked_idle _ hi, hv, hk] at h
    | some k =>
      rw [exec_parse a imm hi hv hk] at h
      cases h
      exact ⟨hv, k, rfl, rfl⟩
  · left
    rw [exec_parse_unloaded a imm hi hv] at h
    cases h
    exact ⟨hv, rfl⟩

/-- Every answer of a command word to an idle block is one of `Block.Issued`. -/
theorem exec_issued {i : Instr} {v : Word} {s t : State} (hv : encode i = .cmd v) (hi : s.blk.phase = .idle)
    (h : exec i s = .next t) : ∃ c, s.blk.beginOp.Issued s.params c ∧ t = s.withBlk c := by
  cases i with
  | nop | ckclr | ckadd => exact issue_issued hi h (.computes _ _)
  | cktx | ckrx =>
    refine issue_issued hi h ?_
    split
    · exact .raises _
    · exact .computes _ _
  | build =>
    refine issue_issued hi h ?_
    split
    · exact .raises _
    · exact .builds _
  | ldcmd =>
    refine issue_issued hi h ?_
    split
    · exact .loadFails _
    · split
      · exact .loads _ _
      · exact .loadFails _
  | send =>
    refine issue_issued hi h ?_
    split
    · exact .raises _
    · next hlen => exact .sends hlen
  | recv =>
    refine issue_issued hi h ?_
    split
    · exact .raisesCleared _
    · exact .receives _
  | verify | vfytx =>
    refine issue_issued hi h ?_
    split
    · exact .raisesCleared _
    · exact .verifies _ _
  | getu8 | getu16 | getu32 =>
    refine issue_issued hi h ?_
    split
    · exact .computes _ _
    · exact .raises _
  | xchg =>
    rcases exec_xchg_cases hi h with ht | ⟨hv, L, hL, ht⟩
    · exact ⟨_, .raisesCleared _, ht⟩
    · exact ⟨_, .exchanges L hv hL, ht⟩
  | parse =>
    rcases exec_parse_cases hi h with ⟨-, ht⟩ | ⟨hv, k, hk, ht⟩
    · exact ⟨_, .raisesCleared _, ht⟩
    · exact ⟨_, .parses k hv hk, ht⟩
  | illegal => exact issue_issued hi h (.raises _)
  | frameReadConc | frameSetPressure | frameSpcStatus | frameSetSpc => cases hv

/-- Every answer of a command word: a busy block drops it, an idle one answers as `Block.Issued` (10_state.md R40). -/
theorem exec_cmd_cases {v : Word} {s t : State} (h : exec (decodeCmd v) s = .next t) :
    (s.blk.phase ≠ .idle ∧ t = s.dropWrite) ∨
    (s.blk.phase = .idle ∧ ∃ c, s.blk.beginOp.Issued s.params c ∧ t = s.withBlk c) := by
  by_cases hi : s.blk.phase = .idle
  · exact .inr ⟨hi, exec_issued (encode_decodeCmd v) hi h⟩
  · rw [exec_cmd_busy v hi] at h
    cases h
    exact .inl ⟨hi, rfl⟩

/-! ## What the events of a phase can answer -/

/-- The block whose SHADOW held a response of length `L` that matched: it is copied to RXBUF (42_parser.md R142). -/
def Block.accepted (b : Block) (L : FrameLen) : Block :=
  { b with acc := b.shadow.sum (L.val - 2), ckok := true, rxbuf := b.rxbuf.writeAt 0 (b.shadow.first L.val) }

/-- The block whose SHADOW held a response of length `L` that did not match (42_parser.md R142). -/
def Block.rejected (b : Block) (L : FrameLen) : Block := { b with acc := b.shadow.sum (L.val - 2), ckok := false }

/-- What rx_complete can answer (42_parser.md R142): the sum of the frame is in ACC and CKOK says whether it matched. -/
inductive Block.Received (P : Params) (b : Block) (L : FrameLen) : Block → Prop
  /-- An exchange's response matched: it is copied and decoded by kind. -/
  | decoded (k : Kind) (hv : b.shadow.verifies L = true) (hc : b.chain = true) (hk : Kind.ofByte? b.kind = some k) :
    Received P b L ((b.accepted L).decodeKind P k)
  /-- The frame of a RECV matched: it is copied. -/
  | copied (hv : b.shadow.verifies L = true) (hc : b.chain = false) :
    Received P b L ((b.accepted L).complete true .none)
  /-- An exchange's response did not match. -/
  | exchangeFails (hc : b.chain = true) :
    Received P b L ((b.rejected L).failKind .checksum)
  /-- The frame of a RECV did not match. -/
  | recvFails (hc : b.chain = false) :
    Received P b L ((b.rejected L).complete false .checksum)

theorem Block.rxComplete_received {P : Params} {b c : Block} (h : b.rxComplete P = .ok c) :
    ∃ L, frameLen? b.rxlen.toNat = some L ∧ b.Received P L c := by
  cases hL : frameLen? b.rxlen.toNat with
  | none => simp [Block.rxComplete, hL] at h
  | some L =>
    refine ⟨L, rfl, ?_⟩
    cases hg : b.shadow.verifies L with
    | true =>
      rw [Block.rxComplete_verified P b hL hg] at h
      cases hc : b.chain with
      | true =>
        cases hk : Kind.ofByte? b.kind with
        | none => simp [hc, hk] at h
        | some k =>
          simp only [hc, hk, if_true] at h
          cases h
          exact .decoded k hg hc hk
      | false =>
        simp only [hc, Bool.false_eq_true, if_false] at h
        cases h
        exact .copied hg hc
    | false =>
      rw [Block.rxComplete_mismatch P b hL hg] at h
      cases hc : b.chain with
      | true =>
        simp only [hc, if_true] at h
        cases h
        exact .exchangeFails hc
      | false =>
        simp only [hc, Bool.false_eq_true, if_false] at h
        cases h
        exact .recvFails hc

/-- The block whose SHADOW has taken the byte `x` (42_parser.md R142). -/
def Block.tookByte (b : Block) (x : Byte) : Block :=
  { b with shadow := b.shadow.setIfInBounds b.rxcnt.toNat x, rxcnt := b.rxcnt + 1#5 }

theorem Block.tookByte_rxcnt_toNat {b : Block} (x : Byte) (h : b.rxcnt.toNat < 16) :
    (b.tookByte x).rxcnt.toNat = b.rxcnt.toNat + 1 := pos_succ_toNat b.rxcnt h

theorem Block.afterRx_eq (P : Params) {b : Block} (x : Byte) (h : b.rxcnt.toNat < 16) :
    b.afterRx P x = if b.rxcnt + 1#5 = b.rxlen then (b.tookByte x).rxComplete P else .ok (b.tookByte x) := by
  unfold Block.afterRx
  rw [if_pos h]
  rfl

/-- Everything the byte of an RXBYTE event can do to the block (42_parser.md R142). -/
theorem Block.afterRx_cases {P : Params} {b c : Block} {x : Byte} (h : b.afterRx P x = .ok c) :
    b.rxcnt.toNat < 16 ∧
    ((b.rxcnt + 1#5 ≠ b.rxlen ∧ c = b.tookByte x) ∨
      (b.rxcnt + 1#5 = b.rxlen ∧ ∃ L, frameLen? b.rxlen.toNat = some L ∧ (b.tookByte x).Received P L c)) := by
  by_cases hlt : b.rxcnt.toNat < 16
  · refine ⟨hlt, ?_⟩
    rw [Block.afterRx_eq P x hlt] at h
    split at h
    · next he => exact .inr ⟨he, Block.rxComplete_received h⟩
    · next hne => cases h; exact .inl ⟨hne, rfl⟩
  · simp [Block.afterRx, hlt] at h

/-- The block whose byte at TXPOS the TX sink has taken (41_framer.md R124). -/
def Block.sentByte (b : Block) : Block := { b with txpos := b.txpos + 1#5 }

theorem Block.sentByte_txpos_toNat {b : Block} (h : b.txpos.toNat < 16) : b.sentByte.txpos.toNat = b.txpos.toNat + 1 :=
  pos_succ_toNat b.txpos h

/-- Everything the acceptance of a byte can do to the block (41_framer.md R124). -/
theorem Block.afterTx_cases {b c : Block} (h : b.afterTx = .ok c) :
    (b.txpos + 1#5 ≠ b.txlen ∧ c = b.sentByte) ∨
    (b.txpos + 1#5 = b.txlen ∧ b.chain = false ∧ c = b.sentByte.complete true .none) ∨
    (b.txpos + 1#5 = b.txlen ∧ b.chain = true ∧ ∃ k, Kind.ofByte? b.kind = some k ∧
      c = b.sentByte.startRx (rspLen k)) := by
  unfold Block.afterTx at h
  split at h
  · next he =>
    right
    unfold Block.sendDone at h
    split at h
    · next hc =>
      split at h
      · cases h
      · next k hk => cases h; exact .inr ⟨he, hc, k, hk, rfl⟩
    · next hc => cases h; exact .inl ⟨he, by simpa using hc, rfl⟩
  · next hne => cases h; exact .inl ⟨hne, rfl⟩

/-- Everything a TIMEOUT can do (42_parser.md R143). -/
theorem timeout_cases (s : State) :
    timeout s = s ∨ timeout s = s.withBlk (s.blk.failKind .timeout) ∨
      timeout s = s.withBlk (s.blk.complete false .timeout) := by
  unfold timeout
  split
  · split
    · exact .inr (.inl rfl)
    · exact .inr (.inr rfl)
  · exact .inl rfl

/-- The response decode only completes the operation; besides it writes CONC, WARM, RESULT and FLAG
(43_exchange_and_commands.md R177). -/
theorem Block.decodeKind_completes (P : Params) (b : Block) (k : Kind) :
    ∃ v w r f o e, b.decodeKind P k = { b with conc := v, warm := w, result := r, flag := f }.complete o e := by
  cases k with
  | readConc =>
    simp only [Block.decodeKind, Block.decodeReadConc]
    split
    · exact ⟨_, _, _, _, _, _, rfl⟩
    · exact ⟨_, _, _, _, _, _, rfl⟩
  | setPressure => exact ⟨_, _, _, _, _, _, rfl⟩
  | spcStatus => exact ⟨_, _, _, _, _, _, rfl⟩
  | setSpc => exact ⟨_, _, _, _, _, _, rfl⟩

/-- fail_kind only completes the operation, with OK = 0: it writes RESULT (43_exchange_and_commands.md R182). -/
theorem Block.failKind_completes (b : Block) (e : ErrCode) :
    ∃ r, b.failKind e = { b with result := r }.complete false e := by
  unfold Block.failKind
  split
  · exact ⟨b.conc, rfl⟩
  · exact ⟨b.result, rfl⟩

/-- PARSE sums the response and completes by kind (43_exchange_and_commands.md R176). -/
theorem Block.parseFrame_completes (P : Params) (b : Block) (k : Kind) :
    ∃ v w r f o e, b.parseFrame P k = { b with
      acc := b.rxbuf.sum ((rspLen k).val - 2), ckok := b.rxbuf.verifies (rspLen k), conc := v, warm := w, result := r,
      flag := f }.complete o e := by
  unfold Block.parseFrame
  dsimp only
  split
  · exact Block.decodeKind_completes P _ k
  · obtain ⟨r, hr⟩ := Block.failKind_completes
      { b with acc := b.rxbuf.sum ((rspLen k).val - 2), ckok := b.rxbuf.verifies (rspLen k) } .checksum
    exact ⟨_, _, r, _, _, _, hr⟩

end Machine

end Sys2Proof

/-! SUPPORT. The invariant, phase by phase; every event keeps it (O46, O47) and none faults in a state that meets it (O48). -/

namespace Sys2Proof.Machine

/-! ## The invariant of each phase -/

/-- The part of the invariant that does not depend on the phase (10_state.md R38). -/
abbrev Block.LengthsOk (b : Block) : Prop :=
  b.txpos.toNat ≤ b.txlen.toNat ∧ b.txlen.toNat ≤ 16 ∧ b.rxcnt.toNat ≤ b.rxlen.toNat ∧ b.rxlen.toNat ≤ 16 ∧
  (b.kvalid = true → (Kind.ofByte? b.kind).map (fun k => (cmdLen k).val) = some b.txlen.toNat)

/-- The outcome bits as begin_op leaves them (00_scope.md R14). -/
abbrev Block.OutcomeClear (b : Block) : Prop := b.done = false ∧ b.ok = false ∧ b.err = .none ∧ b.flag = false

theorem Block.Inv.lengthsOk {b : Block} (h : b.Inv) : b.LengthsOk := by
  obtain ⟨⟨hpos, hlen, hcnt, hrx, -, -, hkind, -⟩, -, -⟩ := h
  exact ⟨hpos, hlen, hcnt, hrx, hkind⟩

theorem Block.inv_idle_iff {b : Block} (h : b.phase = .idle) : b.Inv ↔ b.LengthsOk ∧ b.chain = false := by
  refine ⟨fun hb => ⟨hb.lengthsOk, ?_⟩, fun ⟨⟨hpos, hlen, hcnt, hrx, hkind⟩, hc⟩ => ?_⟩
  · obtain ⟨⟨-, -, -, -, hidle, -, -, -⟩, -, -⟩ := hb
    exact hidle h
  · refine ⟨⟨hpos, hlen, hcnt, hrx, fun _ => hc, ?_, hkind, ?_⟩, ⟨?_, ?_, ?_⟩, ?_, ?_, ?_⟩ <;> simp [h, hc]

theorem Block.inv_sending_iff {b : Block} (h : b.phase = .sending) :
    b.Inv ↔ b.LengthsOk ∧ b.OutcomeClear ∧ b.txpos.toNat < b.txlen.toNat ∧
      (b.chain = true → b.kvalid = true ∧ b.ckok = false) := by
  refine ⟨fun hb => ⟨hb.lengthsOk, ?_⟩, fun ⟨⟨hpos, hlen, hcnt, hrx, hkind⟩, hout, hlt, hc⟩ => ?_⟩
  · obtain ⟨⟨-, -, -, -, -, -, -, hv⟩, ⟨hlt, -, -⟩, hout, -, hck⟩ := hb
    exact ⟨hout (by simp [h]), hlt h, fun hc => ⟨hv hc, hck hc⟩⟩
  · refine ⟨⟨hpos, hlen, hcnt, hrx, ?_, ?_, hkind, fun h1 => (hc h1).1⟩, ⟨fun _ => hlt, ?_, ?_⟩, fun _ => hout, ?_,
      fun h1 => (hc h1).2⟩ <;> simp [h]

theorem Block.inv_receiving_iff {b : Block} (h : b.phase = .receiving) :
    b.Inv ↔ b.LengthsOk ∧ b.OutcomeClear ∧ 2 ≤ b.rxlen.toNat ∧ b.rxcnt.toNat < b.rxlen.toNat ∧ b.ckok = false ∧
      (b.chain = true → b.kvalid = true ∧ (Kind.ofByte? b.kind).map (fun k => (rspLen k).val) = some b.rxlen.toNat) := by
  refine ⟨fun hb => ⟨hb.lengthsOk, ?_⟩, fun ⟨⟨hpos, hlen, hcnt, hrx, hkind⟩, hout, h2, hlt, hck, hc⟩ => ?_⟩
  · obtain ⟨⟨-, -, -, -, -, h2, -, hv⟩, ⟨-, hlt, hrsp⟩, hout, hck, -⟩ := hb
    exact ⟨hout (by simp [h]), h2 h, hlt h, hck h, fun hc => ⟨hv hc, hrsp h hc⟩⟩
  · refine ⟨⟨hpos, hlen, hcnt, hrx, ?_, fun _ => h2, hkind, fun h1 => (hc h1).1⟩,
      ⟨?_, fun _ => hlt, fun _ h1 => (hc h1).2⟩, fun _ => hout, fun _ => hck, fun _ => hck⟩ <;> simp [h]

/-- A completed operation leaves an idle block, so only the lengths matter. -/
theorem Block.LengthsOk.complete_inv {b : Block} (h : b.LengthsOk) (o : Bool) (e : ErrCode) : (b.complete o e).Inv :=
  (Block.inv_idle_iff rfl).2 ⟨h, rfl⟩

theorem Block.LengthsOk.decodeKind_inv {b : Block} (h : b.LengthsOk) (P : Params) (k : Kind) : (b.decodeKind P k).Inv := by
  obtain ⟨v, w, r, f, o, e, heq⟩ := b.decodeKind_completes P k
  rw [heq]
  exact Block.LengthsOk.complete_inv (b := { b with conc := v, warm := w, result := r, flag := f }) h o e

theorem Block.LengthsOk.failKind_inv {b : Block} (h : b.LengthsOk) (e : ErrCode) : (b.failKind e).Inv := by
  obtain ⟨r, heq⟩ := b.failKind_completes e
  rw [heq]
  exact Block.LengthsOk.complete_inv (b := { b with result := r }) h false e

theorem Block.LengthsOk.parseFrame_inv {b : Block} (h : b.LengthsOk) (P : Params) (k : Kind) : (b.parseFrame P k).Inv := by
  obtain ⟨v, w, r, f, o, e, heq⟩ := b.parseFrame_completes P k
  rw [heq]
  exact Block.LengthsOk.complete_inv (b := { b with
    acc := b.rxbuf.sum ((rspLen k).val - 2), ckok := b.rxbuf.verifies (rspLen k), conc := v, warm := w, result := r,
    flag := f }) h o e

theorem Block.afterReset_inv (n : Nat) : (Block.afterReset n).Inv :=
  (Block.inv_idle_iff rfl).2 ⟨by simp [Block.LengthsOk, Block.afterReset], rfl⟩

/-! ## Every event keeps it -/

/-- A valid kind is one of the table's, and TXLEN is its command's length (R38). -/
theorem Block.LengthsOk.kind_known {b : Block} (h : b.LengthsOk) (hv : b.kvalid = true) :
    ∃ k, Kind.ofByte? b.kind = some k ∧ b.txlen.toNat = (cmdLen k).val := by
  obtain ⟨-, -, -, -, hkind⟩ := h
  obtain ⟨k, hk, hlen⟩ := Option.map_eq_some_iff.1 (hkind hv)
  exact ⟨k, hk, hlen.symm⟩

/-- A new TXLEN of a frame length, with TXPOS at 0 (R120, R122). -/
theorem Block.LengthsOk.setTx {b : Block} (h : b.LengthsOk) (c : Block) (L : FrameLen)
    (hpos : c.txpos = 0#5) (hlen : c.txlen = BitVec.ofNat 5 L.val) (hcnt : c.rxcnt = b.rxcnt) (hrx : c.rxlen = b.rxlen)
    (hkind : c.kvalid = true → ∃ k, c.kind = k.code ∧ L = cmdLen k) : c.LengthsOk := by
  obtain ⟨-, -, hcnt', hrx', -⟩ := h
  have hL := L.property
  refine ⟨by simp [hpos], ?_, by rwa [hcnt, hrx], by rwa [hrx], fun hv => ?_⟩
  · rw [hlen, pos_ofNat_toNat]
    exact hL.2
  · obtain ⟨k, hk, rfl⟩ := hkind hv
    simp only [hk, Kind.ofByte?_code, hlen, pos_ofNat_toNat, Option.map_some]

/-- A receive phase that starts, of an exchange for its own command's response, meets the invariant (R124, R141). -/
theorem Block.LengthsOk.startRx_inv {b : Block} (h : b.LengthsOk) (ho : b.OutcomeClear) (hck : b.ckok = false) (L : FrameLen)
    (hc : b.chain = true → b.kvalid = true ∧ ∃ k, Kind.ofByte? b.kind = some k ∧ L = rspLen k) : (b.startRx L).Inv := by
  obtain ⟨hpos, hlen, -, -, hkind⟩ := h
  obtain ⟨h2, h16⟩ := L.property
  have hrx : (b.startRx L).rxlen.toNat = L.val := pos_ofNat_toNat L
  have hcnt : (b.startRx L).rxcnt.toNat = 0 := rfl
  refine (Block.inv_receiving_iff rfl).2
    ⟨⟨hpos, hlen, by omega, by omega, hkind⟩, ho, by omega, by omega, hck, fun h1 => ⟨(hc h1).1, ?_⟩⟩
  obtain ⟨-, k, hk, rfl⟩ := hc h1
  simp only [hrx, Block.startRx_kind, hk, Option.map_some]

/-- The answer of a command word to an idle block meets the invariant. -/
theorem Block.Issued.inv {P : Params} {b c : Block} (h : b.Issued P c) (hb : b.LengthsOk) (ho : b.OutcomeClear) : c.Inv := by
  cases h with
  | computes a r => exact Block.LengthsOk.complete_inv (b := { b with acc := a, result := r }) hb _ _
  | builds L =>
    exact (hb.setTx (b.buildFrame L) L rfl rfl rfl rfl nofun).complete_inv _ _
  | loads k imm =>
    exact (hb.setTx (b.loadFrame P k imm) (cmdLen k) rfl rfl rfl rfl fun _ => ⟨k, rfl, rfl⟩).complete_inv _ _
  | loadFails e =>
    obtain ⟨hpos, hlen, hcnt, hrx, -⟩ := hb
    exact Block.LengthsOk.complete_inv (b := { b with kvalid := false }) ⟨hpos, hlen, hcnt, hrx, nofun⟩ _ _
  | raises e => exact hb.complete_inv _ _
  | raisesCleared e => exact Block.LengthsOk.complete_inv (b := b.clearCkok) hb _ _
  | sends hne =>
    obtain ⟨hpos, hlen, hcnt, hrx, hkind⟩ := hb
    have hpos : 0 < b.txlen.toNat := Nat.pos_of_ne_zero fun h0 => hne (BitVec.eq_of_toNat_eq h0)
    exact (Block.inv_sending_iff rfl).2 ⟨⟨Nat.zero_le _, hlen, hcnt, hrx, hkind⟩, ho, hpos, nofun⟩
  | receives L => exact Block.LengthsOk.startRx_inv (b := { b.clearCkok with chain := false }) hb ho rfl L nofun
  | verifies B L => exact Block.LengthsOk.complete_inv (b := { b with acc := B.sum (L.val - 2), ckok := B.verifies L }) hb _ _
  | exchanges L hv hL =>
    obtain ⟨hpos, hlen, hcnt, hrx, hkind⟩ := hb
    have := frameLen?_val hL
    have hL := L.property
    refine (Block.inv_sending_iff rfl).2 ⟨⟨Nat.zero_le _, hlen, hcnt, hrx, hkind⟩, ho, ?_, fun _ => ⟨hv, rfl⟩⟩
    show 0 < b.txlen.toNat
    omega
  | parses k hv hk => exact Block.LengthsOk.parseFrame_inv (b := b.clearCkok) hb P k

/-- A write to a register other than CMD keeps the invariant (20_memory.md R64). -/
theorem Block.Inv.writeReg {b : Block} (h : b.Inv) (v : Word) (r : Reg) : (writeReg b v r).Inv := by
  have idle {c : Block} (hc : b.phase = .idle → c.Inv) : (writeIdle b c).Inv := by
    unfold writeIdle
    split
    · exact h
    · next hb => exact hc (by simpa using hb)
  cases r with
  | acc | txbuf | rxbuf => exact idle fun _ => h
  | status =>
    simp only [Machine.writeReg]
    split <;> exact h
  | cmd | result | conc | frame | kindreg | unmapped => exact h

/-- TXACC keeps the invariant (41_framer.md R124). -/
theorem Block.Inv.afterTx {b c : Block} (h : b.Inv) (hp : b.phase = .sending) (hc : b.afterTx = .ok c) : c.Inv := by
  obtain ⟨⟨hpos, hlen, hcnt, hrx, hkind⟩, ho, hlt, hch⟩ := (Block.inv_sending_iff hp).1 h
  have hsucc := Block.sentByte_txpos_toNat (b := b) (by omega)
  have hl : b.sentByte.LengthsOk := ⟨hsucc.trans_le hlt, hlen, hcnt, hrx, hkind⟩
  rcases Block.afterTx_cases hc with ⟨hne, rfl⟩ | ⟨-, -, rfl⟩ | ⟨-, hchain, k, hk, rfl⟩
  · have hne' : b.sentByte.txpos.toNat ≠ b.txlen.toNat := fun he => hne (BitVec.eq_of_toNat_eq he)
    exact (Block.inv_sending_iff (b := b.sentByte) hp).2 ⟨hl, ho, lt_of_le_of_ne hl.1 hne', hch⟩
  · exact hl.complete_inv _ _
  · obtain ⟨hv, hck⟩ := hch hchain
    exact hl.startRx_inv ho hck _ fun _ => ⟨hv, k, hk, rfl⟩

/-- The end of a receive phase meets the invariant (42_parser.md R142). -/
theorem Block.Received.inv {P : Params} {b c : Block} {L : FrameLen} (h : b.Received P L c) (hb : b.LengthsOk) : c.Inv := by
  cases h with
  | decoded k hv hc hk => exact Block.LengthsOk.decodeKind_inv (b := b.accepted L) hb P k
  | copied hv hc => exact Block.LengthsOk.complete_inv (b := b.accepted L) hb _ _
  | exchangeFails hc => exact Block.LengthsOk.failKind_inv (b := b.rejected L) hb _
  | recvFails hc => exact Block.LengthsOk.complete_inv (b := b.rejected L) hb _ _

/-- RXBYTE keeps the invariant (42_parser.md R142). -/
theorem Block.Inv.afterRx {P : Params} {b c : Block} {x : Byte} (h : b.Inv) (hp : b.phase = .receiving)
    (hc : b.afterRx P x = .ok c) : c.Inv := by
  obtain ⟨⟨hpos, hlen, hcnt, hrx, hkind⟩, ho, h2, hlt, hck, hch⟩ := (Block.inv_receiving_iff hp).1 h
  have hsucc := Block.tookByte_rxcnt_toNat (b := b) x (by omega)
  have hcnt' : (b.tookByte x).rxcnt.toNat ≤ b.rxlen.toNat := hsucc.trans_le hlt
  have hl : (b.tookByte x).LengthsOk := ⟨hpos, hlen, hcnt', hrx, hkind⟩
  obtain ⟨-, ⟨hne, rfl⟩ | ⟨-, L, -, hrec⟩⟩ := Block.afterRx_cases hc
  · have hne' : (b.tookByte x).rxcnt.toNat ≠ b.rxlen.toNat := fun he => hne (BitVec.eq_of_toNat_eq he)
    exact (Block.inv_receiving_iff (b := b.tookByte x) hp).2 ⟨hl, ho, h2, lt_of_le_of_ne hcnt' hne', hck, hch⟩
  · exact hrec.inv hl

/-- TIMEOUT keeps the invariant (42_parser.md R143). -/
theorem timeout_inv {s : State} (h : s.blk.Inv) : (timeout s).blk.Inv := by
  rcases timeout_cases s with ht | ht | ht <;> rw [ht]
  · exact h
  · exact h.lengthsOk.failKind_inv _
  · exact h.lengthsOk.complete_inv _ _

/-- A command word keeps the invariant (30_encoding.md R84). -/
theorem exec_cmd_inv {v : Word} {s t : State} (hs : s.blk.Inv) (h : exec (decodeCmd v) s = .next t) : t.blk.Inv := by
  rcases exec_cmd_cases h with ⟨-, rfl⟩ | ⟨-, c, hc, rfl⟩
  · exact hs
  · exact hc.inv hs.lengthsOk ⟨rfl, rfl, rfl, rfl⟩

/-- Settles O46: the block is idle and its lengths are 0. -/
theorem resetMeetsInvariants : Obligations.ResetMeetsInvariants := Block.afterReset_inv 0

/-- Settles O47: by the events of a step. -/
theorem everyStepKeepsInvariants : Obligations.EveryStepKeepsInvariants := by
  intro s t hs h
  rcases step_next_cases h with ⟨-, rfl⟩ | ⟨-, -, v, -, -, hx⟩ | ⟨-, -, v, r, -, -, -, rfl⟩ | ⟨-, -, r, -, rfl⟩ | ⟨-, hx⟩ |
    ⟨x, -, rfl⟩ | ⟨-, hx⟩ | ⟨-, rfl⟩ | ⟨-, rfl⟩
  · exact hs
  · exact exec_cmd_inv (s := s.pop) hs hx
  · exact hs.writeReg v r
  · exact hs
  · rcases txAcc_cases hx with ⟨-, rfl⟩ | ⟨hp, x, b, -, hb, rfl⟩
    · exact hs
    · exact hs.afterTx hp hb
  · exact hs
  · rcases rxByte_cases hx with ⟨-, rfl⟩ | ⟨hp, x, rest, b, -, hb, rfl⟩
    · exact hs
    · exact hs.afterRx hp hb
  · exact timeout_inv (s := s.pop) hs
  · exact Block.afterReset_inv _

/-! ## No event faults -/

/-- While a frame is sent the acceptance of a byte has a meaning (41_framer.md R124). -/
theorem Block.Inv.afterTx_ne_error {b : Block} (h : b.Inv) (f : Fault) : b.afterTx ≠ .error f := by
  obtain ⟨-, -, -, -, -, -, -, hv⟩ := h.1
  unfold Block.afterTx Block.sendDone
  split
  · dsimp only
    split
    · next hc =>
      obtain ⟨k, hk, -⟩ := h.lengthsOk.kind_known (hv hc)
      simp [hk]
    · nofun
  · nofun

theorem txAcc_ne_fault {s : State} (h : s.blk.Inv) (f : Fault) : txAcc s ≠ .fault f := by
  by_cases hp : s.blk.phase = .sending
  · obtain ⟨⟨-, hlen, -⟩, -, hlt, -⟩ := (Block.inv_sending_iff hp).1 h
    rw [txAcc_sending hp (by omega)]
    cases hb : s.blk.afterTx with
    | error g => exact absurd hb (h.afterTx_ne_error g)
    | ok b => nofun
  · simp [txAcc, hp]

theorem Block.rxComplete_ne_error {P : Params} {b : Block} (h : b.LengthsOk) (h2 : 2 ≤ b.rxlen.toNat)
    (hc : b.chain = true → b.kvalid = true) (f : Fault) : b.rxComplete P ≠ .error f := by
  obtain ⟨-, -, -, hrx, -⟩ := id h
  have hL := frameLen?_eq_some ⟨h2, hrx⟩
  cases hg : b.shadow.verifies ⟨b.rxlen.toNat, h2, hrx⟩ with
  | true =>
    rw [Block.rxComplete_verified P b hL hg]
    split
    · next hch =>
      obtain ⟨k, hk, -⟩ := h.kind_known (hc hch)
      simp [hk]
    · nofun
  | false =>
    rw [Block.rxComplete_mismatch P b hL hg]
    nofun

theorem Block.Inv.afterRx_ne_error {b : Block} (h : b.Inv) (hp : b.phase = .receiving) (P : Params) (x : Byte) (f : Fault) :
    b.afterRx P x ≠ .error f := by
  obtain ⟨⟨hpos, hlen, hcnt, hrx, hkind⟩, ho, h2, hlt, hck, hch⟩ := (Block.inv_receiving_iff hp).1 h
  have h16 : b.rxcnt.toNat < 16 := by omega
  have hcnt' : (b.tookByte x).rxcnt.toNat ≤ b.rxlen.toNat := (Block.tookByte_rxcnt_toNat x h16).trans_le hlt
  rw [Block.afterRx_eq P x h16]
  split
  · exact Block.rxComplete_ne_error (b := b.tookByte x) ⟨hpos, hlen, hcnt', hrx, hkind⟩ h2 (fun hc => (hch hc).1) f
  · nofun

theorem rxByte_ne_fault {s : State} (h : s.blk.Inv) (f : Fault) : rxByte s ≠ .fault f := by
  unfold rxByte
  split
  · next x rest hp _ =>
    cases hb : s.blk.afterRx s.params x with
    | error g => exact absurd hb (h.afterRx_ne_error hp s.params x g)
    | ok b => nofun
  · nofun

/-- Of the command words only XCHG and PARSE need a meaning for KIND or TXLEN, and R38 gives it. -/
theorem exec_cmd_ne_fault {s : State} (h : s.blk.Inv) (v : Word) (f : Fault) : exec (decodeCmd v) s ≠ .fault f := by
  by_cases hi : s.blk.phase = .idle
  · have hv := encode_decodeCmd v
    cases hd : decodeCmd v with
    | xchg a imm =>
      by_cases hk : s.blk.kvalid = true
      · obtain ⟨k, -, hlen⟩ := h.lengthsOk.kind_known hk
        rw [exec_xchg a imm hi hk hlen]
        nofun
      · rw [exec_xchg_unloaded a imm hi hk]
        nofun
    | parse a imm =>
      by_cases hv : s.blk.kvalid = true
      · obtain ⟨k, hk, -⟩ := h.lengthsOk.kind_known hv
        rw [exec_parse a imm hi hv hk]
        nofun
      · rw [exec_parse_unloaded a imm hi hv]
        nofun
    | frameReadConc | frameSetPressure | frameSpcStatus | frameSetSpc => rw [hd] at hv; cases hv
    | _ => nofun
  · rw [exec_cmd_busy v hi]
    nofun

/-- Settles O48: the only events that could fault are a command word, TXACC and RXBYTE. -/
theorem invariantStatesNeverFault : Obligations.InvariantStatesNeverFault := by
  intro s f hs
  cases hin : s.env.inputs with
  | nil => rw [step_nil hin]; nofun
  | cons x rest =>
    cases x with
    | hostWr addr size v =>
      rw [step_hostWr hin]
      split
      · nofun
      · exact exec_cmd_ne_fault (s := s.pop) hs v f
      · nofun
    | hostRd addr size =>
      rw [step_hostRd hin]
      split <;> nofun
    | txAcc => rw [step_txAcc hin]; exact txAcc_ne_fault (s := s.pop) hs f
    | rxArrive x => rw [step_rxArrive hin]; nofun
    | rxByte => rw [step_rxByte hin]; exact rxByte_ne_fault (s := s.pop) hs f
    | timeout => rw [step_timeout hin]; nofun
    | reset => rw [step_reset hin]; nofun

end Sys2Proof.Machine

/-! SUPPORT. When CONC and WARM change (10_state.md R31, R51): O49 and O50. -/

namespace Sys2Proof.Machine

/-- CONC and WARM are as they were. -/
abbrev Block.KeepsReading (b c : Block) : Prop := c.conc = b.conc ∧ c.warm = b.warm

/-- The block has just taken its reading from the verified READ_CONC response of length `L` in RXBUF
(43_exchange_and_commands.md R178). -/
structure Block.HoldsReading (c : Block) (L : FrameLen) : Prop where
  ckok : c.ckok = true
  ok : c.ok = true
  warm : c.warm = true
  result : c.result = c.conc
  frame : c.rxbuf.goodFrame L
  status : c.rxbuf[11] = 0x00#8
  conc : c.conc = be32 c.rxbuf[7] c.rxbuf[8] c.rxbuf[9] c.rxbuf[10]

/-- The decode takes a reading where the status byte is 0 (R178). -/
theorem Block.decodeReadConc_reading {b : Block} {L : FrameLen} (hck : b.ckok = true) (hframe : b.rxbuf.goodFrame L) :
    b.KeepsReading b.decodeReadConc ∨ b.decodeReadConc.HoldsReading L := by
  unfold Block.decodeReadConc
  split
  · next hst => exact .inr ⟨hck, rfl, rfl, rfl, hframe, hst, rfl⟩
  · exact .inl ⟨rfl, rfl⟩

/-- The decode of a verified response takes a reading only for READ_CONC (R177, R178). -/
theorem Block.decodeKind_reading (P : Params) {b : Block} {L : FrameLen} (k : Kind) (hck : b.ckok = true)
    (hframe : b.rxbuf.goodFrame L) :
    b.KeepsReading (b.decodeKind P k) ∨ (k = .readConc ∧ (b.decodeKind P k).HoldsReading L) := by
  cases k with
  | readConc => exact (Block.decodeReadConc_reading hck hframe).imp_right fun hread => ⟨rfl, hread⟩
  | setPressure | spcStatus | setSpc => exact .inl ⟨rfl, rfl⟩

theorem Block.failKind_keepsReading (b : Block) (e : ErrCode) : b.KeepsReading (b.failKind e) := by
  obtain ⟨r, heq⟩ := b.failKind_completes e
  rw [heq]
  exact ⟨rfl, rfl⟩

/-- PARSE takes a reading only for READ_CONC (43_exchange_and_commands.md R176). -/
theorem Block.parseFrame_reading (P : Params) (b : Block) (k : Kind) :
    b.KeepsReading (b.parseFrame P k) ∨ (k = .readConc ∧ (b.parseFrame P k).HoldsReading (rspLen k)) := by
  unfold Block.parseFrame
  dsimp only
  split
  · next hv => exact Block.decodeKind_reading P k hv ((Buf.verifies_iff _ _).1 hv)
  · exact .inl (Block.failKind_keepsReading _ _)

/-- Of the command words only PARSE takes a reading. -/
theorem Block.Issued.reading {P : Params} {b c : Block} (h : b.Issued P c) :
    b.KeepsReading c ∨ (b.kind = 0x03#8 ∧ c.HoldsReading (rspLen .readConc)) := by
  cases h with
  | parses k hv hk =>
    rcases Block.parseFrame_reading P b.clearCkok k with hkeep | ⟨rfl, hread⟩
    · exact .inl hkeep
    · exact .inr ⟨Kind.ofByte?_eq_some hk, hread⟩
  | _ => exact .inl ⟨rfl, rfl⟩

/-- The last byte of an exchange's response takes a reading only for READ_CONC (42_parser.md R142). -/
theorem Block.Received.reading {P : Params} {b c : Block} {L : FrameLen} (h : b.Received P L c) :
    b.KeepsReading c ∨ (b.chain = true ∧ b.kind = 0x03#8 ∧ c.HoldsReading L) := by
  cases h with
  | decoded k hv hc hk =>
    rcases Block.decodeKind_reading P (b := b.accepted L) k rfl (Buf.copied_goodFrame b.rxbuf hv) with
      hkeep | ⟨rfl, hread⟩
    · exact .inl hkeep
    · exact .inr ⟨hc, Kind.ofByte?_eq_some hk, hread⟩
  | exchangeFails hc => exact .inl (Block.failKind_keepsReading _ _)
  | copied hv hc => exact .inl ⟨rfl, rfl⟩
  | recvFails hc => exact .inl ⟨rfl, rfl⟩

theorem Block.afterTx_keepsReading {b c : Block} (h : b.afterTx = .ok c) : b.KeepsReading c := by
  rw [Block.afterTx_frame h]
  exact ⟨rfl, rfl⟩

theorem writeReg_keepsReading (b : Block) (v : Word) (r : Reg) : b.KeepsReading (writeReg b v r) := by
  cases r with
  | acc | txbuf | rxbuf =>
    simp only [writeReg, writeIdle]
    split <;> exact ⟨rfl, rfl⟩
  | status =>
    simp only [writeReg]
    split <;> exact ⟨rfl, rfl⟩
  | cmd | result | conc | frame | kindreg | unmapped => exact ⟨rfl, rfl⟩

theorem timeout_keepsReading (s : State) : s.blk.KeepsReading (timeout s).blk := by
  rcases timeout_cases s with ht | ht | ht <;> rw [ht]
  · exact ⟨rfl, rfl⟩
  · exact Block.failKind_keepsReading _ _
  · exact ⟨rfl, rfl⟩

/-- A step that is no RESET keeps CONC and WARM, or takes a reading from a READ_CONC response: by PARSE of an idle block, or
at the last byte of an exchange, where the response has the length RXLEN. -/
theorem step_reading {s t : State} (h : step s = .next t) (hr : s.env.inputs.head? ≠ some .reset) :
    s.blk.KeepsReading t.blk ∨
    (s.blk.kind = 0x03#8 ∧ ∃ L, t.blk.HoldsReading L ∧
      (L = rspLen .readConc ∨ (s.blk.phase = .receiving ∧ s.blk.chain = true ∧ s.blk.rxlen.toNat = L.val))) := by
  rcases step_next_cases h with ⟨-, rfl⟩ | ⟨-, -, v, -, -, hx⟩ | ⟨-, -, v, r, -, -, -, rfl⟩ | ⟨-, -, r, -, rfl⟩ | ⟨-, hx⟩ |
    ⟨x, -, rfl⟩ | ⟨-, hx⟩ | ⟨-, rfl⟩ | ⟨hreset, -⟩
  · exact .inl ⟨rfl, rfl⟩
  · rcases exec_cmd_cases hx with ⟨-, rfl⟩ | ⟨-, c, hc, rfl⟩
    · exact .inl ⟨rfl, rfl⟩
    · rcases hc.reading with hkeep | ⟨hk, hread⟩
      · exact .inl hkeep
      · exact .inr ⟨hk, _, hread, .inl rfl⟩
  · exact .inl (writeReg_keepsReading s.blk v r)
  · exact .inl ⟨rfl, rfl⟩
  · rcases txAcc_cases hx with ⟨-, rfl⟩ | ⟨-, x, b, -, hb, rfl⟩
    · exact .inl ⟨rfl, rfl⟩
    · exact .inl (Block.afterTx_keepsReading hb)
  · exact .inl ⟨rfl, rfl⟩
  · rcases rxByte_cases hx with ⟨-, rfl⟩ | ⟨hp, x, rest, b, -, hb, rfl⟩
    · exact .inl ⟨rfl, rfl⟩
    · obtain ⟨-, ⟨-, rfl⟩ | ⟨-, L, hL, hrec⟩⟩ := Block.afterRx_cases hb
      · exact .inl ⟨rfl, rfl⟩
      · rcases hrec.reading with hkeep | ⟨hc, hk, hread⟩
        · exact .inl hkeep
        · exact .inr ⟨hk, L, hread, .inr ⟨hp, hc, (frameLen?_val hL).symm⟩⟩
  · exact .inl (timeout_keepsReading s.pop)
  · exact absurd hreset hr

/-- A READ_CONC exchange waits for 14 bytes (10_state.md R38). -/
theorem Block.Inv.rxlen_readConc {b : Block} (h : b.Inv) (hp : b.phase = .receiving) (hc : b.chain = true)
    (hk : b.kind = 0x03#8) : b.rxlen.toNat = (rspLen .readConc).val := by
  obtain ⟨-, -, -, -, -, hch⟩ := (Block.inv_receiving_iff hp).1 h
  have hlen := (hch hc).2
  rw [hk] at hlen
  exact (Option.some.inj hlen).symm

/-- Settles O49: the step takes a reading, of the response's 14 bytes by the invariant. -/
theorem concOnlyFromVerifiedReading : Obligations.ConcOnlyFromVerifiedReading := by
  intro s t hs h hne
  by_cases hr : s.env.inputs.head? = some .reset
  · exact .inl hr
  · right
    rcases step_reading h hr with ⟨hconc, -⟩ | ⟨hk, L, hread, hL⟩
    · exact absurd hconc hne
    · have hL14 : L = rspLen .readConc := by
        rcases hL with hL | ⟨hp, hc, hlen⟩
        · exact hL
        · exact Subtype.ext (hlen.symm.trans (hs.rxlen_readConc hp hc hk))
      subst hL14
      refine ⟨hk, hread.ckok, hread.ok, hread.warm, hread.result, hread.frame, hread.status, ?_⟩
      rw [← be32_toNat, BitVec.ofNat_toNat, BitVec.setWidth_eq]
      exact hread.conc

/-- Settles O50: a step keeps CONC and WARM or takes a reading. -/
theorem warmMeansAReadingArrived : Obligations.WarmMeansAReadingArrived := by
  intro s t h hr
  rcases step_reading h hr with ⟨hconc, hwarm⟩ | ⟨hk, L, hread, -⟩
  · rw [hconc, hwarm]
    exact ⟨id, fun h0 h1 => absurd h1 (by simp [h0]), id⟩
  · exact ⟨fun _ => hread.warm, fun _ _ => ⟨hk, hread.ok, hread.ckok, hread.status⟩,
      fun _ h0 => absurd hread.warm (by simp [h0])⟩

end Sys2Proof.Machine

/-! SUPPORT. What a step does to the streams (O55), events that are not enabled (O29), and dropped writes (O40). -/

namespace Sys2Proof.Machine

/-- What a step can do to the streams (00_scope.md R15, 10_state.md R21, R22). -/
theorem step_streams {s t : State} (h : step s = .next t) :
    ((∃ b, s.env.inputs.head? = some (.rxArrive b) ∧ t.env.rxFifo = s.env.rxFifo ++ [b]) ∧ t.env.txStream = s.env.txStream) ∨
    (s.env.inputs.head? = some .rxByte ∧ s.blk.phase = .receiving ∧ t.env.rxFifo = s.env.rxFifo.tail ∧
      t.env.txStream = s.env.txStream) ∨
    (s.env.inputs.head? = some .txAcc ∧ s.blk.phase = .sending ∧ t.env.rxFifo = s.env.rxFifo ∧
      ∃ h : s.blk.txpos.toNat < 16, t.env.txStream = s.env.txStream ++ [s.blk.txbuf[s.blk.txpos.toNat]]) ∨
    ((∀ b, s.env.inputs.head? ≠ some (.rxArrive b)) ∧ ¬ (s.env.inputs.head? = some .rxByte ∧ s.blk.phase = .receiving) ∧
      ¬ (s.env.inputs.head? = some .txAcc ∧ s.blk.phase = .sending) ∧
      t.env.rxFifo = s.env.rxFifo ∧ t.env.txStream = s.env.txStream) := by
  rcases step_next_cases h with ⟨hin, rfl⟩ | ⟨_, _, v, hin, -, hx⟩ | ⟨_, _, v, r, hin, -, -, rfl⟩ | ⟨_, _, r, hin, rfl⟩ |
    ⟨hin, hx⟩ | ⟨x, hin, rfl⟩ | ⟨hin, hx⟩ | ⟨hin, rfl⟩ | ⟨hin, rfl⟩
  · simp [hin]
  · simp [hin, (exec_cmd_outside hx).2]
  · simp [hin]
  · simp [hin, hostRead]
  · rcases txAcc_cases hx with ⟨hp, rfl⟩ | ⟨hp, x, b, hbyte, -, rfl⟩
    · have hp' : s.blk.phase ≠ .sending := hp
      simp [hin, hp']
    · obtain ⟨hlt, rfl⟩ := Vector.getElem?_eq_some_iff.1 hbyte
      exact .inr (.inr (.inl ⟨hin, hp, rfl, hlt, rfl⟩))
  · exact .inl ⟨⟨x, hin, rfl⟩, rfl⟩
  · rcases rxByte_cases hx with ⟨hno, rfl⟩ | ⟨hp, x, rest, b, hf, -, rfl⟩
    · by_cases hp : s.blk.phase = .receiving
      · have hf : s.env.rxFifo = [] := hno.resolve_left (fun hne => hne hp)
        exact .inr (.inl ⟨hin, hp, by simp [hf], rfl⟩)
      · simp [hin, hp]
    · have hf' : s.env.rxFifo = x :: rest := hf
      exact .inr (.inl ⟨hin, hp, by simp [hf'], rfl⟩)
  · have henv : (timeout s.pop).env = s.pop.env := by
      rcases timeout_cases s.pop with ht | ht | ht <;> rw [ht] <;> rfl
    simp [hin, henv]
  · simp [hin, resetBlock]

/-- Settles O55: each clause is one of the cases of `step_streams`. -/
theorem streamsMoveOneByteAtATime : Obligations.StreamsMoveOneByteAtATime := by
  intro s t h
  rcases step_streams h with ⟨⟨b, hin, hfifo⟩, htx⟩ | ⟨hin, hp, hfifo, htx⟩ | ⟨hin, hp, hfifo, htx⟩ |
    ⟨hna, hnr, hnt, hfifo, htx⟩
  · simp [hin, hfifo, htx]
  · simp [hin, hp, hfifo, htx]
  · exact ⟨by simp [hin], by simp [hin], fun _ _ => hfifo, fun _ _ => htx, fun hno => absurd ⟨hin, hp⟩ hno⟩
  · exact ⟨fun b hb => absurd hb (hna b), fun hb hp => absurd ⟨hb, hp⟩ hnr, fun _ _ => hfifo,
      fun hb hp => absurd ⟨hb, hp⟩ hnt, fun _ => htx⟩

/-- Settles O29: by the phase test of each event, and for RXBYTE the FIFO. -/
theorem disabledEventsHaveNoEffect : Obligations.DisabledEventsHaveNoEffect := by
  intro s rest
  refine ⟨fun hin hp => ?_, fun hin hp => ?_, fun hin hno => ?_⟩
  · rw [step_timeout hin, timeout, if_neg (by exact hp)]
  · rw [step_txAcc hin, txAcc, if_neg (by exact hp)]
  · rw [step_rxByte hin]
    rcases hno with hp | hf
    · exact rxByte_not_ready (by simp [Block.rxReady, hp])
    · simp [rxByte, hf]

/-- A busy block drops a write of ACC or of a buffer (10_state.md R40). -/
theorem writeIdle_busy {b : Block} (b' : Block) (h : b.phase ≠ .idle) : writeIdle b b' = { b with drop := true } := by
  simp [writeIdle, h]

theorem regAt_buffer {off : Nat} (h : 0x40 ≤ off ∧ off < 0xC0) : (∃ i, regAt off = .txbuf i) ∨ ∃ i, regAt off = .rxbuf i := by
  unfold regAt
  repeat rw [if_neg (by omega)]
  split
  · exact .inl ⟨_, rfl⟩
  · rw [dif_pos (by omega)]
    exact .inr ⟨_, rfl⟩

/-- Settles O40: the offset's register is CMD, ACC or a buffer byte, and a busy block drops a write of each. -/
theorem busyWritesAreDropped : Obligations.BusyWritesAreDropped := by
  intro s rest off v hin hp halign hoff
  rw [step_hostWr hin, busReg_window s.params (by omega) halign]
  rcases hoff with rfl | rfl | hbuf
  · exact exec_cmd_busy (s := s.pop) v hp
  · simp only [regAt, writeReg, writeIdle_busy _ hp]
    rfl
  · rcases regAt_buffer hbuf with ⟨i, hi⟩ | ⟨i, hi⟩
    · simp only [hi, writeReg, writeIdle_busy _ hp]
    · simp only [hi, writeReg, writeIdle_busy _ hp]

end Sys2Proof.Machine

/-! SUPPORT. No event but RXBYTE reads SHADOW: a step commutes with writing another SHADOW (10_state.md R34), and so O44. -/

namespace Sys2Proof.Machine

/-- The block with another SHADOW. -/
def Block.withShadow (sh : Buf) (b : Block) : Block := { b with shadow := sh }

/-- The state with another SHADOW. -/
def State.withShadow (sh : Buf) (s : State) : State := { s with blk := s.blk.withShadow sh }

/-- The outcome of a step with another SHADOW in the next state. -/
def outcomeWithShadow (sh : Buf) : Host.Outcome State Fault Refusal → Host.Outcome State Fault Refusal
  | .next t => .next (t.withShadow sh)
  | .fault f => .fault f
  | .refused r => .refused r

section WithShadow

variable (sh : Buf)

@[simp] theorem Block.withShadow_kvalid (b : Block) : (b.withShadow sh).kvalid = b.kvalid := rfl
@[simp] theorem Block.withShadow_txlen (b : Block) : (b.withShadow sh).txlen = b.txlen := rfl
@[simp] theorem Block.withShadow_kind (b : Block) : (b.withShadow sh).kind = b.kind := rfl

/-! ## Command words -/

theorem issue_withShadow (s : State) (op : Block → Block) (h : ∀ b, op (b.withShadow sh) = (op b).withShadow sh) :
    issue (s.withShadow sh) op = (issue s op).withShadow sh := by
  by_cases hi : s.blk.phase = .idle
  · rw [issue_idle op hi, issue_idle op (by exact hi)]
    exact congrArg s.withBlk (h s.blk.beginOp)
  · rw [issue_busy op hi, issue_busy op (by exact hi)]
    rfl

theorem issueChecked_withShadow (s : State) (op : Block → Except Fault Block)
    (h : ∀ b, op (b.withShadow sh) = (op b).map (Block.withShadow sh)) :
    issueChecked (s.withShadow sh) op = outcomeWithShadow sh (issueChecked s op) := by
  by_cases hi : s.blk.phase = .idle
  · rw [issueChecked_idle op hi, issueChecked_idle op (by exact hi)]
    have hop : op (s.withShadow sh).blk.beginOp = (op s.blk.beginOp).map (Block.withShadow sh) := h s.blk.beginOp
    rw [hop]
    cases op s.blk.beginOp <;> rfl
  · rw [issueChecked_busy op hi, issueChecked_busy op (by exact hi)]
    rfl

theorem Block.decodeKind_withShadow (P : Params) (b : Block) (k : Kind) :
    (b.withShadow sh).decodeKind P k = (b.decodeKind P k).withShadow sh := by
  cases k with
  | readConc =>
    simp only [Block.decodeKind, Block.decodeReadConc, apply_ite (Block.withShadow sh)]
    rfl
  | setPressure | spcStatus | setSpc => rfl

theorem Block.failKind_withShadow (b : Block) (e : ErrCode) :
    (b.withShadow sh).failKind e = (b.failKind e).withShadow sh := by
  simp only [Block.failKind, apply_ite (Block.withShadow sh)]
  rfl

theorem Block.parseFrame_withShadow (P : Params) (b : Block) (k : Kind) :
    (b.withShadow sh).parseFrame P k = (b.parseFrame P k).withShadow sh := by
  simp only [Block.parseFrame, apply_ite (Block.withShadow sh), ← Block.decodeKind_withShadow, ← Block.failKind_withShadow]
  rfl

/-- A command word does not read SHADOW. -/
theorem exec_withShadow {i : Instr} {v : Word} (hv : encode i = .cmd v) (s : State) :
    exec i (s.withShadow sh) = outcomeWithShadow sh (exec i s) := by
  have op {op : Block → Block} (h : ∀ b, op (b.withShadow sh) = (op b).withShadow sh) :
      Host.Outcome.next (issue (s.withShadow sh) op) = outcomeWithShadow sh (.next (issue s op)) :=
    congrArg Host.Outcome.next (issue_withShadow sh s op h)
  cases i with
  | nop | ckclr | ckadd | illegal => exact op fun b => rfl
  | cktx a | ckrx a =>
    refine op fun b => ?_
    rw [apply_ite (Block.withShadow sh)]
    rfl
  | build a | recv a | verify a | vfytx a =>
    refine op fun b => ?_
    cases frameLen? a.toNat <;> rfl
  | ldcmd a imm =>
    refine op fun b => ?_
    cases Kind.ofByte? a with
    | none => rfl
    | some k =>
      dsimp only
      rw [apply_ite (Block.withShadow sh)]
      rfl
  | send =>
    refine op fun b => ?_
    rw [apply_ite (Block.withShadow sh)]
    rfl
  | getu8 a | getu16 a | getu32 a =>
    refine op fun b => ?_
    rw [apply_dite (Block.withShadow sh)]
    rfl
  | xchg =>
    unfold exec execXchg
    refine issueChecked_withShadow sh s _ fun b => ?_
    rw [apply_ite (Except.map (Block.withShadow sh))]
    simp only [Block.clearCkok_kvalid, Block.clearCkok_txlen, Block.withShadow_kvalid, Block.withShadow_txlen]
    cases frameLen? b.txlen.toNat <;> rfl
  | parse =>
    unfold exec execParse
    refine issueChecked_withShadow sh s _ fun b => ?_
    rw [apply_ite (Except.map (Block.withShadow sh))]
    simp only [Block.clearCkok_kvalid, Block.clearCkok_kind, Block.withShadow_kvalid, Block.withShadow_kind]
    cases Kind.ofByte? b.kind with
    | none => rfl
    | some k =>
      have hparse := Block.parseFrame_withShadow sh s.params b.clearCkok k
      exact if_congr Iff.rfl (congrArg Except.ok hparse) rfl
  | frameReadConc | frameSetPressure | frameSpcStatus | frameSetSpc => cases hv

/-! ## The other events -/

theorem Block.afterTx_withShadow (b : Block) : (b.withShadow sh).afterTx = b.afterTx.map (Block.withShadow sh) := by
  have hdone (b : Block) : (b.withShadow sh).sendDone = b.sendDone.map (Block.withShadow sh) := by
    unfold Block.sendDone
    rw [apply_ite (Except.map (Block.withShadow sh)), Block.withShadow_kind]
    cases Kind.ofByte? b.kind <;> rfl
  have hlast := hdone b.sentByte
  unfold Block.afterTx
  rw [apply_ite (Except.map (Block.withShadow sh))]
  exact if_congr Iff.rfl hlast rfl

theorem txAcc_withShadow (s : State) : txAcc (s.withShadow sh) = outcomeWithShadow sh (txAcc s) := by
  have hb : (s.withShadow sh).blk.afterTx = s.blk.afterTx.map (Block.withShadow sh) := Block.afterTx_withShadow sh s.blk
  have htx : (s.withShadow sh).blk.txbuf[(s.withShadow sh).blk.txpos.toNat]? = s.blk.txbuf[s.blk.txpos.toNat]? := rfl
  unfold txAcc
  rw [apply_ite (outcomeWithShadow sh), hb, htx]
  cases s.blk.txbuf[s.blk.txpos.toNat]? with
  | none => rfl
  | some x => cases s.blk.afterTx <;> rfl

theorem timeout_withShadow (s : State) : timeout (s.withShadow sh) = (timeout s).withShadow sh := by
  have hfail := Block.failKind_withShadow sh s.blk .timeout
  unfold timeout
  rw [apply_ite (State.withShadow sh), apply_ite (State.withShadow sh)]
  refine if_congr Iff.rfl (if_congr Iff.rfl ?_ rfl) rfl
  exact congrArg s.withBlk hfail

theorem writeReg_withShadow (b : Block) (v : Word) (r : Reg) :
    writeReg (b.withShadow sh) v r = (writeReg b v r).withShadow sh := by
  cases r with
  | acc | txbuf | rxbuf =>
    simp only [writeReg, writeIdle, apply_ite (Block.withShadow sh)]
    rfl
  | status =>
    simp only [writeReg, apply_ite (Block.withShadow sh)]
    rfl
  | cmd | result | conc | frame | kindreg | unmapped => rfl

theorem hostRead_withShadow (r : Reg) (s : State) : hostRead r (s.withShadow sh) = (hostRead r s).withShadow sh := by
  cases r <;> rfl

/-- A step whose event is neither RXBYTE nor RESET does not read SHADOW and leaves it (10_state.md R34). -/
theorem step_withShadow {s : State} (hrx : s.env.inputs.head? ≠ some .rxByte) (hreset : s.env.inputs.head? ≠ some .reset) :
    step (s.withShadow sh) = outcomeWithShadow sh (step s) := by
  cases hin : s.env.inputs with
  | nil => rw [step_nil hin, step_nil (s := s.withShadow sh) hin]; rfl
  | cons x rest =>
    have hin' : (s.withShadow sh).env.inputs = x :: rest := hin
    have hpop : (s.withShadow sh).pop = s.pop.withShadow sh := rfl
    have hpar : (s.withShadow sh).params = s.params := rfl
    cases x with
    | hostWr addr size v =>
      rw [step_hostWr hin, step_hostWr hin', hpop, hpar]
      cases busReg s.params addr size with
      | error r => rfl
      | ok r =>
        have hw := congrArg s.pop.withBlk (writeReg_withShadow sh s.blk v r)
        cases r with
        | cmd => exact exec_withShadow sh (encode_decodeCmd v) s.pop
        | _ => exact congrArg Host.Outcome.next hw
    | hostRd addr size =>
      rw [step_hostRd hin, step_hostRd hin', hpop, hpar]
      cases busReg s.params addr size with
      | error r => rfl
      | ok r => exact congrArg Host.Outcome.next (hostRead_withShadow sh r s.pop)
    | txAcc => rw [step_txAcc hin, step_txAcc hin']; exact txAcc_withShadow sh s.pop
    | rxArrive x => rw [step_rxArrive hin, step_rxArrive hin']; rfl
    | timeout =>
      rw [step_timeout hin, step_timeout hin']
      exact congrArg Host.Outcome.next (timeout_withShadow sh s.pop)
    | rxByte => exact absurd (by rw [hin]; rfl) hrx
    | reset => exact absurd (by rw [hin]; rfl) hreset

/-- RESET draws SHADOW anew, whatever it held (70_reset_and_hazards.md R231). -/
theorem step_reset_withShadow {s : State} (h : s.env.inputs.head? = some .reset) : step (s.withShadow sh) = step s := by
  obtain ⟨rest, hin⟩ := List.head?_eq_some_iff.1 h
  rw [step_reset hin, step_reset (s := s.withShadow sh) hin]
  rfl

end WithShadow

/-- Settles O44: the step of the other state has the same outcome, with its own SHADOW; a RESET has even the same. -/
theorem shadowIsHidden : Obligations.ShadowIsHidden := by
  intro s sh hrx
  by_cases hreset : s.env.inputs.head? = some .reset
  · have hstep := step_reset_withShadow sh hreset
    exact ⟨fun t ht => ⟨t.blk.shadow, hstep.trans ht⟩, fun f hf => hstep.trans hf, fun r hr => hstep.trans hr⟩
  · have hstep {o : Host.Outcome State Fault Refusal} (ho : step s = o) : step (s.withShadow sh) = outcomeWithShadow sh o :=
      ho ▸ step_withShadow sh hrx hreset
    exact ⟨fun t ht => ⟨sh, hstep ht⟩, fun f hf => hstep hf, fun r hr => hstep hr⟩

end Sys2Proof.Machine

/-! SUPPORT. The words STATUS, FRAME and KINDREG read as, field by field (10_state.md R41, R43, R44): O42. -/

namespace Sys2Proof.Machine

/-- The field `x` at bit `k` of a 32-bit register. -/
abbrev fieldAt {n : Nat} (k : Nat) (x : BitVec n) : Word := x.setWidth 32 <<< k

theorem extract_fieldAt {n : Nat} (k : Nat) (x : BitVec n) (h : k + n ≤ 32) : (fieldAt k x).extractLsb' k n = x := by
  apply BitVec.eq_of_getLsbD_eq
  intro i hi
  have h32 : k + i < 32 := by omega
  simp [hi, h32]

/-- Bits outside a field are clear in it. -/
theorem extract_fieldAt_outside {n : Nat} (k lo m : Nat) (x : BitVec n) (h : k + n ≤ lo ∨ lo + m ≤ k) :
    (fieldAt k x).extractLsb' lo m = 0#m := by
  apply BitVec.eq_of_getLsbD_eq
  intro i hi
  rcases h with h | h
  · simp [BitVec.getLsbD_of_ge x (lo + i - k) (by omega)]
  · have hk : lo + i < k := by omega
    simp [hk]

/-- A one-bit field read as a bit. -/
theorem getLsbD_of_extract {w : Word} {k : Nat} {x : Bool} (h : w.extractLsb' k 1 = .ofBool x) : w.getLsbD k = x := by
  have hbit := congrArg (fun v : BitVec 1 => v.getLsbD 0) h
  simpa using hbit

theorem Block.statusWord_eq_fields (b : Block) :
    b.statusWord = fieldAt 16 (.ofBool b.drop) ||| fieldAt 12 (.ofBool b.warm) ||| fieldAt 8 b.err.code
      ||| fieldAt 5 b.phase.code ||| fieldAt 4 (.ofBool b.flag) ||| fieldAt 3 (.ofBool b.ckok) ||| fieldAt 2 (.ofBool b.ok)
      ||| fieldAt 1 (.ofBool b.done) ||| fieldAt 0 (.ofBool b.busy) := by
  simp [Block.statusWord, bit]

theorem Block.frameWord_eq_fields (b : Block) :
    b.frameWord = fieldAt 24 b.rxcnt ||| fieldAt 16 b.rxlen ||| fieldAt 8 b.txpos ||| fieldAt 0 b.txlen := by
  simp [Block.frameWord]

theorem Block.kindWord_eq_fields (b : Block) : b.kindWord = fieldAt 8 (.ofBool b.kvalid) ||| fieldAt 0 b.kind := by
  simp [Block.kindWord, bit]

/-- BUSY shows whether a phase runs (10_state.md R42). -/
theorem Block.busy_eq_decide (b : Block) : b.busy = decide (b.phase ≠ .idle) := by
  cases h : b.phase <;> simp [h]

/-- The bits and fields of STATUS (10_state.md R41, R42). -/
theorem Block.statusWord_fields (b : Block) :
    b.statusWord.getLsbD 0 = b.busy ∧ b.statusWord.getLsbD 1 = b.done ∧ b.statusWord.getLsbD 2 = b.ok ∧
      b.statusWord.getLsbD 3 = b.ckok ∧ b.statusWord.getLsbD 4 = b.flag ∧ b.statusWord.extractLsb' 5 2 = b.phase.code ∧
      b.statusWord.getLsbD 7 = false ∧ b.statusWord.extractLsb' 8 4 = b.err.code ∧ b.statusWord.getLsbD 12 = b.warm ∧
      b.statusWord.extractLsb' 13 3 = 0#3 ∧ b.statusWord.getLsbD 16 = b.drop ∧ b.statusWord.extractLsb' 17 15 = 0#15 := by
  rw [Block.statusWord_eq_fields]
  refine ⟨getLsbD_of_extract ?_, getLsbD_of_extract ?_, getLsbD_of_extract ?_, getLsbD_of_extract ?_, getLsbD_of_extract ?_,
    ?_, getLsbD_of_extract ?_, ?_, getLsbD_of_extract ?_, ?_, getLsbD_of_extract ?_, ?_⟩
  all_goals
    simp (disch := decide) only [BitVec.extractLsb'_or, extract_fieldAt, extract_fieldAt_outside, BitVec.zero_or,
      BitVec.or_zero, BitVec.ofBool_false, BitVec.ofNat_eq_ofNat]

/-- The fields of FRAME (10_state.md R43). -/
theorem Block.frameWord_fields (b : Block) :
    b.frameWord.extractLsb' 0 5 = b.txlen ∧ b.frameWord.extractLsb' 5 3 = 0#3 ∧ b.frameWord.extractLsb' 8 5 = b.txpos ∧
      b.frameWord.extractLsb' 13 3 = 0#3 ∧ b.frameWord.extractLsb' 16 5 = b.rxlen ∧ b.frameWord.extractLsb' 21 3 = 0#3 ∧
      b.frameWord.extractLsb' 24 5 = b.rxcnt ∧ b.frameWord.extractLsb' 29 3 = 0#3 := by
  rw [Block.frameWord_eq_fields]
  refine ⟨?_, ?_, ?_, ?_, ?_, ?_, ?_, ?_⟩
  all_goals
    simp (disch := decide) only [BitVec.extractLsb'_or, extract_fieldAt, extract_fieldAt_outside, BitVec.zero_or,
      BitVec.or_zero]

/-- The fields of KINDREG (10_state.md R44). -/
theorem Block.kindWord_fields (b : Block) :
    b.kindWord.extractLsb' 0 8 = b.kind ∧ b.kindWord.getLsbD 8 = b.kvalid ∧ b.kindWord.extractLsb' 9 23 = 0#23 := by
  rw [Block.kindWord_eq_fields]
  refine ⟨?_, getLsbD_of_extract ?_, ?_⟩
  all_goals
    simp (disch := decide) only [BitVec.extractLsb'_or, extract_fieldAt, extract_fieldAt_outside, BitVec.zero_or,
      BitVec.or_zero]

/-- Settles O42: the three words are the unions of their fields, and the codes are the rules'. -/
theorem statusWordsShowTheirFields : Obligations.StatusWordsShowTheirFields := by
  intro b
  refine ⟨?_, b.frameWord_fields, b.kindWord_fields⟩
  have h := b.statusWord_fields
  rw [Block.busy_eq_decide] at h
  exact h

end Sys2Proof.Machine

/-! SUPPORT. CKOK at the issue of each operation (10_state.md R46): O52. -/

namespace Sys2Proof.Machine

/-- PARSE leaves its comparison in CKOK (10_state.md R46). -/
theorem Block.parseFrame_ckok (P : Params) (b : Block) (k : Kind) :
    (b.parseFrame P k).ckok = b.rxbuf.verifies (rspLen k) := by
  obtain ⟨v, w, r, f, o, e, heq⟩ := b.parseFrame_completes P k
  rw [heq]
  rfl

/-- Every command word but RECV, VERIFY, VFYTX, XCHG and PARSE leaves CKOK (10_state.md R46). -/
theorem exec_ckok_kept {i : Instr} {v : Word} {s t : State} (hv : encode i = .cmd v) (hi : s.blk.phase = .idle)
    (h : exec i s = .next t) (hop : fieldOp v ∉ [0x20#8, 0x21#8, 0x22#8, 0x30#8, 0x31#8]) : t.blk.ckok = s.blk.ckok := by
  have issued {op : Block → Block} (h : Host.Outcome.next (issue s op) = (.next t : Host.Outcome State Fault Refusal))
      (hop : (op s.blk.beginOp).ckok = s.blk.ckok) : t.blk.ckok = s.blk.ckok := by
    rw [issue_idle _ hi] at h
    cases h
    exact hop
  cases i with
  | nop | ckclr | ckadd | illegal => exact issued h rfl
  | cktx | ckrx | build | send | getu8 | getu16 | getu32 =>
    refine issued h ?_
    split <;> rfl
  | ldcmd =>
    refine issued h ?_
    split
    · rfl
    · split <;> rfl
  | recv | verify | vfytx | xchg | parse =>
    cases hv
    simp at hop
  | frameReadConc | frameSetPressure | frameSpcStatus | frameSetSpc => cases hv

theorem exec_recv_ckok {a : Byte} {imm : Half} {s t : State} (hi : s.blk.phase = .idle)
    (h : exec (.recv a imm) s = .next t) : t.blk.ckok = false := by
  simp only [exec, execRecv, issue_idle _ hi] at h
  cases h
  dsimp only [State.withBlk]
  split <;> rfl

theorem exec_xchg_ckok {a : Byte} {imm : Half} {s t : State} (hi : s.blk.phase = .idle)
    (h : exec (.xchg a imm) s = .next t) : t.blk.ckok = false := by
  rcases exec_xchg_cases hi h with rfl | ⟨-, L, -, rfl⟩ <;> rfl

theorem exec_verify_ckok {a : Byte} {imm : Half} {s t : State} (hi : s.blk.phase = .idle)
    (h : exec (.verify a imm) s = .next t) :
    t.blk.ckok = true ↔ ∃ ha : 2 ≤ a.toNat ∧ a.toNat ≤ 16, s.blk.rxbuf.goodFrame ⟨a.toNat, ha⟩ := by
  simp only [exec, execVerify, issue_idle _ hi] at h
  cases h
  by_cases ha : 2 ≤ a.toNat ∧ a.toNat ≤ 16
  · simp only [frameLen?_eq_some ha, exists_prop_of_true ha]
    exact Buf.verifies_iff s.blk.rxbuf ⟨a.toNat, ha⟩
  · simp [frameLen?_eq_none (n := a.toNat) (by omega), ha]

theorem exec_vfytx_ckok {a : Byte} {imm : Half} {s t : State} (hi : s.blk.phase = .idle)
    (h : exec (.vfytx a imm) s = .next t) :
    t.blk.ckok = true ↔ ∃ ha : 2 ≤ a.toNat ∧ a.toNat ≤ 16, s.blk.txbuf.goodFrame ⟨a.toNat, ha⟩ := by
  simp only [exec, execVfytx, issue_idle _ hi] at h
  cases h
  by_cases ha : 2 ≤ a.toNat ∧ a.toNat ≤ 16
  · simp only [frameLen?_eq_some ha, exists_prop_of_true ha]
    exact Buf.verifies_iff s.blk.txbuf ⟨a.toNat, ha⟩
  · simp [frameLen?_eq_none (n := a.toNat) (by omega), ha]

theorem exec_parse_ckok {a : Byte} {imm : Half} {s t : State} (hi : s.blk.phase = .idle)
    (h : exec (.parse a imm) s = .next t) :
    t.blk.ckok = true ↔
      s.blk.kvalid = true ∧ ∃ k, Kind.ofByte? s.blk.kind = some k ∧ s.blk.rxbuf.goodFrame (rspLen k) := by
  rcases exec_parse_cases hi h with ⟨hv, rfl⟩ | ⟨hv, k, hk, rfl⟩
  · simp [hv]
  · simp [Block.parseFrame_ckok, hv, hk, Buf.verifies_iff]

/-- Settles O52: by the operation OP selects. -/
theorem ckokDiscipline : Obligations.CkokDiscipline := by
  intro v s t hi h
  refine ⟨fun hop => ?_, fun hop => ?_, fun hop => ?_, fun hop => ?_,
    exec_ckok_kept (encode_decodeCmd v) hi h⟩
  · simp only [List.mem_cons, List.not_mem_nil, or_false] at hop
    rcases hop with hop | hop
    · exact exec_recv_ckok hi (by rwa [decodeCmd, hop] at h)
    · exact exec_xchg_ckok hi (by rwa [decodeCmd, hop] at h)
  · exact exec_verify_ckok hi (by rwa [decodeCmd, hop] at h)
  · exact exec_vfytx_ckok hi (by rwa [decodeCmd, hop] at h)
  · exact exec_parse_ckok hi (by rwa [decodeCmd, hop] at h)

end Sys2Proof.Machine

/-! SUPPORT. What a host access does, by the register it reaches: writes (O39), reads (O41) and refused accesses (O43). -/

namespace Sys2Proof.Machine

/-! ## Writes -/

/-- An idle block carries out a write of ACC or of a buffer (20_memory.md R64). -/
theorem writeIdle_idle {b : Block} (b' : Block) (h : b.phase = .idle) : writeIdle b b' = b' := by
  simp [writeIdle, h]

/-- A write of STATUS with bit 16 set clears DROP (10_state.md R41). -/
theorem writeReg_status (b : Block) (v : Word) :
    writeReg b v .status = { b with drop := if v.extractLsb' 16 1 = 1#1 then false else b.drop } := by
  simp only [writeReg, BitVec.getLsbD_eq_extractLsb', beq_iff_eq]
  split <;> rfl

theorem writeReg_acc_idle {b : Block} (v : Word) (h : b.phase = .idle) :
    writeReg b v .acc = { b with acc := v.extractLsb' 0 16 } := by
  rw [writeReg, writeIdle_idle _ h, BitVec.setWidth_eq_extractLsb' (by decide)]

theorem writeReg_txbuf_idle {b : Block} (v : Word) (i : Fin 16) (h : b.phase = .idle) :
    writeReg b v (.txbuf i) = { b with txbuf := b.txbuf.set i (v.extractLsb' 0 8) } := by
  rw [writeReg, writeIdle_idle _ h, BitVec.setWidth_eq_extractLsb' (by decide)]

theorem writeReg_rxbuf_idle {b : Block} (v : Word) (i : Fin 16) (h : b.phase = .idle) :
    writeReg b v (.rxbuf i) = { b with rxbuf := b.rxbuf.set i (v.extractLsb' 0 8) } := by
  rw [writeReg, writeIdle_idle _ h, BitVec.setWidth_eq_extractLsb' (by decide)]

theorem writeReg_readOnly {r : Reg} (b : Block) (v : Word) (h : r ∈ [.result, .conc, .frame, .kindreg, .unmapped]) :
    writeReg b v r = b := by
  cases r with
  | result | conc | frame | kindreg | unmapped => rfl
  | cmd | status | acc | txbuf | rxbuf => simp at h

/-- A write of a word offset whose register is not CMD is that register's write (20_memory.md R61, R64). -/
theorem step_hostWr_reg {s : State} {rest : List Input} {off : Nat} {v : Word} {r : Reg}
    (hin : s.env.inputs = .hostWr (s.params.base + off) .word v :: rest) (hwin : off < 0x100) (halign : off % 4 = 0)
    (hr : regAt off = r) (hcmd : r ≠ .cmd) : step s = .next (s.pop.withBlk (writeReg s.blk v r)) := by
  rw [step_hostWr hin, busReg_window s.params hwin halign, hr]
  cases r with
  | cmd => exact absurd rfl hcmd
  | _ => rfl

/-- A write of a read-only or unmapped register has no effect (20_memory.md R64, R65). -/
theorem step_hostWr_readOnly {s : State} {rest : List Input} {off : Nat} {v : Word}
    (hin : s.env.inputs = .hostWr (s.params.base + off) .word v :: rest) (hwin : off < 0x100) (halign : off % 4 = 0)
    (hr : regAt off ∈ [.result, .conc, .frame, .kindreg, .unmapped]) : step s = .next s.pop := by
  have hcmd : regAt off ≠ .cmd := fun h => by simp [h] at hr
  rw [step_hostWr_reg hin hwin halign rfl hcmd, writeReg_readOnly s.blk v hr]
  rfl

/-- The read-only offsets (10_state.md R39). -/
theorem regAt_readOnly : ∀ off ∈ [0x0C, 0x10, 0x14, 0x18],
    off < 0x100 ∧ off % 4 = 0 ∧ regAt off ∈ [.result, .conc, .frame, .kindreg, .unmapped] := by
  decide

/-- Settles O39: the register at the offset, and what a write does to it. -/
theorem hostWritesReachTheirRegister : Obligations.HostWritesReachTheirRegister := by
  intro s rest off v hin
  refine ⟨?status, ?acc, ?txbuf, ?rxbuf, ?readOnly, ?unmapped⟩
  case status =>
    rintro rfl
    rw [step_hostWr_reg (r := .status) hin (by decide) (by decide) rfl nofun, writeReg_status]
  case acc =>
    rintro rfl hi
    rw [step_hostWr_reg (r := .acc) hin (by decide) (by decide) rfl nofun, writeReg_acc_idle v hi]
  case txbuf =>
    rintro i h rfl hi
    rw [step_hostWr_reg hin (by omega) (by omega) (regAt_txbuf h) nofun, writeReg_txbuf_idle v _ hi]
  case rxbuf =>
    rintro i h rfl hi
    rw [step_hostWr_reg hin (by omega) (by omega) (regAt_rxbuf h) nofun, writeReg_rxbuf_idle v _ hi]
  case readOnly =>
    intro hoff
    obtain ⟨hwin, halign, hreg⟩ := regAt_readOnly off hoff
    exact step_hostWr_readOnly hin hwin halign hreg
  case unmapped =>
    intro halign hoff
    have hreg : regAt off = .unmapped := regAt_unmapped (by omega)
    exact step_hostWr_readOnly hin (by omega) halign (by simp [hreg])

/-! ## Reads -/

/-- A read of a word offset hands the host the register's word and changes nothing else (20_memory.md R63, R66). -/
theorem step_hostRd_window {s : State} {rest : List Input} {off : Nat}
    (hin : s.env.inputs = .hostRd (s.params.base + off) .word :: rest) (hwin : off < 0x100) (halign : off % 4 = 0) :
    step s = .next (hostRead (regAt off) s.pop) := by
  rw [step_hostRd hin, busReg_window s.params hwin halign]

theorem readReg_acc_toNat (b : Block) : (readReg b .acc).toNat = b.acc.toNat :=
  BitVec.toNat_setWidth_of_le (by decide)

theorem readReg_txbuf_toNat (b : Block) (i : Fin 16) : (readReg b (.txbuf i)).toNat = b.txbuf[i].toNat :=
  BitVec.toNat_setWidth_of_le (by decide)

theorem readReg_rxbuf_toNat (b : Block) (i : Fin 16) : (readReg b (.rxbuf i)).toNat = b.rxbuf[i].toNat :=
  BitVec.toNat_setWidth_of_le (by decide)

/-- Settles O41: the read hands out `readReg` of the register at the offset. -/
theorem hostReadsReturnRegisters : Obligations.HostReadsReturnRegisters := by
  intro s rest off hin hwin halign
  have hstep := step_hostRd_window hin hwin halign
  rw [pop_eq hin] at hstep
  refine ⟨readReg s.blk (regAt off), hstep, rfl, ?cmd, ?acc, ?result, ?conc, ?txbuf, ?rxbuf, ?unmapped⟩
  case cmd | result | conc =>
    rintro rfl
    rfl
  case acc =>
    rintro rfl
    exact readReg_acc_toNat s.blk
  case txbuf =>
    rintro i h rfl
    rw [regAt_txbuf h]
    exact readReg_txbuf_toNat s.blk ⟨i, h⟩
  case rxbuf =>
    rintro i h rfl
    rw [regAt_rxbuf h]
    exact readReg_rxbuf_toNat s.blk ⟨i, h⟩
  case unmapped =>
    intro hoff
    rw [regAt_unmapped (by omega)]
    rfl

/-! ## Refused accesses -/

theorem busReg_outside {P : Params} {addr : Nat} (size : AccessSize) (h : addr < P.base ∨ P.base + 0x100 ≤ addr) :
    busReg P addr size = .error .outsideBlock := if_pos h

theorem busReg_misaligned {P : Params} {addr : Nat} {size : AccessSize} (hlo : P.base ≤ addr) (hhi : addr < P.base + 0x100)
    (h : size ≠ .word ∨ (addr - P.base) % 4 ≠ 0) : busReg P addr size = .error .busAccess := by
  rw [busReg, if_neg (by omega), if_pos h]

/-- An access the bus refuses is refused by the step, a write and a read alike (20_memory.md R61). -/
theorem step_refused_of_busReg {s : State} {rest : List Input} {addr : Nat} {size : AccessSize} {v : Word} {r : Refusal}
    (hin : s.env.inputs = .hostWr addr size v :: rest ∨ s.env.inputs = .hostRd addr size :: rest)
    (h : busReg s.params addr size = .error r) : step s = .refused r := by
  rcases hin with hin | hin
  · rw [step_hostWr hin, h]
  · rw [step_hostRd hin, h]

/-- Settles O43: by the two range tests of the bus. -/
theorem badAccessesAreRefused : Obligations.BadAccessesAreRefused := by
  intro s rest addr size v hin
  exact ⟨fun hlo hhi h => step_refused_of_busReg hin (busReg_misaligned hlo hhi h),
    fun h => step_refused_of_busReg hin (busReg_outside size h)⟩

end Sys2Proof.Machine

/-! SUPPORT. The two encodings, each way (30_encoding.md R80 to R87): O56, O57, O58. -/

namespace Sys2Proof

/-! ## Decoding what was encoded -/

/-- OP as the byte whose number the decoder has matched. -/
theorem fieldOp_eq_ofNat {v : Word} {n : Nat} (h : (fieldOp v).toNat = n) : fieldOp v = BitVec.ofNat 8 n := by
  rw [← h, BitVec.ofNat_toNat, BitVec.setWidth_eq]

/-- A command word is ILLEGAL exactly when its OP is outside the map (30_encoding.md R83, R85). -/
theorem decodeCmd_eq_illegal_iff (v : Word) :
    decodeCmd v = .illegal (fieldOp v) (fieldA v) (fieldImm v) ↔ fieldOp v ∉ opcodes := by
  unfold decodeCmd
  split
  case h_17 => simp_all [opcodes, ← BitVec.toNat_inj]
  all_goals exact iff_of_false Instr.noConfusion (not_not_intro (by rw [fieldOp_eq_ofNat ‹_›]; decide))

/-- Behind a command frame's head the decoder reads the tail of its kind (30_encoding.md R87). -/
theorem decodeWire_frameHead (k : Kind) (lf : Half) (bs : List Byte) :
    decodeWire (frameHead k lf ++ bs) = decodeTail k lf bs := by
  simp [decodeWire, frameHead]

/-- A frame decodes to the instruction its kind's tail names, if the tail is used up. -/
theorem decode_frame {k : Kind} {lf : Half} {bs : List Byte} {i : Instr} (h : decodeTail k lf bs = .ok (i, [])) :
    decode (.wire (frameHead k lf ++ bs)) = .ok i := by
  simp only [decode, decodeWire_frameHead, h]

/-- Settles O56: by the instruction. A command word's fields are read back; a frame's tail is read back behind its head. -/
theorem decodeOfEncode : Obligations.DecodeOfEncode := by
  intro P i hwf
  cases i with
  | nop | ckclr | ckadd | cktx | ckrx | build | ldcmd | send | recv | verify | vfytx | getu8 | getu16 | getu32 | xchg | parse =>
    simp [encode, decode, decodeCmd]
  | illegal op a imm =>
    have hop : op ∉ opcodes := by simpa [Instr.wf] using hwf
    have h := decodeCmd_eq_illegal_iff (cmdWord op a imm)
    rw [fieldOp_cmdWord, fieldA_cmdWord, fieldImm_cmdWord] at h
    exact congrArg Except.ok (h.2 hop)
  | frameReadConc | frameSetPressure | frameSpcStatus | frameSetSpc => exact decode_frame (by simp [decodeTail])

/-! ## Encoding what was decoded -/

/-- Settles O57: a command word by its fields, a frame by its head and tail. -/
theorem encodeOfDecode : Obligations.EncodeOfDecode := by
  intro c i h
  cases c with
  | cmd v =>
    cases h
    exact encode_decodeCmd v
  | wire bs => exact Machine.encode_of_decode_wire h

/-- Settles O58: the decoder runs on each of the words and frames. -/
theorem decodesSpecWords : Obligations.DecodesSpecWords := ⟨rfl, rfl, rfl, rfl, rfl, rfl, rfl⟩

end Sys2Proof

/-! SUPPORT. What executing a code does: ILLEGAL (O5), ignored fields (O59), the TXACC event of a frame in flight (O16), and
the step that runs a code (O60). -/

namespace Sys2Proof.Machine

/-! ## Command words -/

/-- LDCMD of an unknown kind reports ILLEGAL and forgets the loaded command (41_framer.md R122). -/
theorem exec_ldcmd_unknown {a : Byte} {s : State} (imm : Half) (hi : s.blk.phase = .idle) (hk : Kind.ofByte? a = none) :
    exec (.ldcmd a imm) s = .next (s.withBlk { s.blk.finished false .illegal with kvalid := false }) := by
  simp only [exec, execLdcmd, issue_idle _ hi, hk]
  rfl

/-- Settles O5: by the opcode map, and begin_op followed by raise. -/
theorem unmappedOpIsIllegal : Obligations.UnmappedOpIsIllegal := by
  intro v s hi
  refine ⟨decodeCmd_eq_illegal_iff v, ?_, fun hop ha => ?_⟩
  · exact congrArg Host.Outcome.next (issue_idle _ hi)
  · have hv : decodeCmd v = .ldcmd (fieldA v) (fieldImm v) := by rw [decodeCmd, hop]; rfl
    rw [hv]
    exact exec_ldcmd_unknown _ hi ((Kind.ofByte?_eq_none_iff _).2 ha)

/-- LDCMD reads IMM16 only for SET_PRESSURE and SET_SPC (30_encoding.md R82, 41_framer.md R122). -/
theorem exec_ldcmd_imm_ignored {a : Byte} (imm imm' : Half) (s : State) (ha : a ∉ [0x01#8, 0x04#8]) :
    exec (.ldcmd a imm) s = exec (.ldcmd a imm') s := by
  simp only [exec, execLdcmd]
  cases hk : Kind.ofByte? a with
  | none => rfl
  | some k =>
    obtain rfl := Kind.ofByte?_eq_some hk
    cases k with
    | readConc | spcStatus => rfl
    | setPressure | setSpc => simp [Kind.code] at ha

/-- Settles O59: by the operation OP selects; what exec drops of a command word is what R83 gives it no operand for. -/
theorem ignoredFieldsDoNotMatter : Obligations.IgnoredFieldsDoNotMatter := by
  intro v w s hop hA himm
  unfold decodeCmd
  rw [← hop]
  split
  -- NOP, CKCLR, SEND, XCHG, PARSE and ILLEGAL read no operand.
  case h_1 | h_2 | h_8 | h_15 | h_16 | h_17 => rfl
  -- LDCMD reads A, and IMM16 for two kinds only.
  case h_7 h =>
    have hop' : fieldOp v = 0x11#8 := fieldOp_eq_ofNat h
    rw [← hA (by rw [hop']; decide)]
    by_cases ha : fieldA v ∈ [0x01#8, 0x04#8]
    · rw [himm hop' ha]
    · exact exec_ldcmd_imm_ignored _ _ s ha
  -- The others read A.
  all_goals
    rw [hA (by rw [fieldOp_eq_ofNat ‹_›]; decide)]
    rfl

/-! ## The TXACC event -/

section TxAcc
variable {s : State} (hs : s.blk.phase = .sending) (hp : s.blk.txpos.toNat < 16)
include hs

/-- Before the last byte of a frame a TXACC sends a byte and moves TXPOS (41_framer.md R124). -/
theorem txAcc_more (hmore : s.blk.txpos.toNat + 1 ≠ s.blk.txlen.toNat) :
    txAcc s = .next { s with
      blk := s.blk.sentByte, env := { s.env with txStream := s.env.txStream ++ [s.blk.txbuf[s.blk.txpos.toNat]] } } := by
  rw [txAcc_sending hs hp, Block.afterTx_more _ hp hmore]
  rfl

variable (hlast : s.blk.txpos.toNat + 1 = s.blk.txlen.toNat)
include hlast

/-- The last byte of a SEND completes it (41_framer.md R124). -/
theorem txAcc_last_of_send (hc : s.blk.chain = false) :
    txAcc s = .next { s with
      blk := s.blk.sentByte.complete true .none
      env := { s.env with txStream := s.env.txStream ++ [s.blk.txbuf[s.blk.txpos.toNat]] } } := by
  rw [txAcc_sending hs hp, Block.afterTx_last _ hp hlast]
  simp [Block.sendDone, hc, Block.sentByte]

/-- The last byte of an exchange's command starts its receive phase (41_framer.md R124). -/
theorem txAcc_last_of_xchg (hc : s.blk.chain = true) {k : Kind} (hk : Kind.ofByte? s.blk.kind = some k) :
    txAcc s = .next { s with
      blk := s.blk.sentByte.startRx (rspLen k)
      env := { s.env with txStream := s.env.txStream ++ [s.blk.txbuf[s.blk.txpos.toNat]] } } := by
  rw [txAcc_sending hs hp, Block.afterTx_last _ hp hlast]
  simp [Block.sendDone, hc, hk, Block.sentByte]

end TxAcc

/-- Completing an operation that is no exchange leaves CHAIN as it is (00_scope.md R14). -/
theorem Block.complete_of_not_chain {b : Block} (o : Bool) (e : ErrCode) (hc : b.chain = false) :
    b.complete o e = { b with phase := .idle, done := true, ok := o, err := e } := by
  rw [Block.complete, ← hc]

/-- Settles O16: a frame in flight runs as the TXACC event, and its byte at TXPOS is TXBUF's. -/
theorem frameRowsSendTheirBytes : Obligations.FrameRowsSendTheirBytes := by
  intro i bs s henc hs hlen htake h
  have hle : bs.length ≤ 16 := by simpa using congrArg List.length htake
  have hp : s.blk.txpos.toNat < 16 := by omega
  have hfl : s.inFlight = bs := by rw [State.inFlight, Buf.first, hlen, htake]
  have hexec : exec i s = txAcc s := (exec_wire s henc).trans (sendBeat_inFlight hs hfl)
  have hbyte : bs[s.blk.txpos.toNat] = s.blk.txbuf[s.blk.txpos.toNat] :=
    (List.getElem_of_eq htake.symm h).trans (by simp)
  dsimp only
  rw [hexec, hbyte, ← hlen]
  refine ⟨fun hmore => ?_, fun hlast hc => ?_, fun hlast hc k hk => ?_⟩
  · exact txAcc_more hs hp (by omega)
  · rw [txAcc_last_of_send hs hp hlast hc, Block.complete_of_not_chain _ _ (by exact hc)]
    rfl
  · exact txAcc_last_of_xchg hs hp hlast hc hk

/-! ## The step that runs a code -/

/-- A host write to CMD runs the word's instruction (30_encoding.md R84). -/
theorem step_hostWr_cmd {s : State} {v : Word} {rest : List Input}
    (h : s.env.inputs = .hostWr s.params.base .word v :: rest) : step s = exec (decodeCmd v) s.pop := by
  have hcmd : busReg s.params s.params.base .word = .ok .cmd := busReg_window s.params (off := 0) (by decide) rfl
  rw [step_hostWr h, hcmd]

/-- A TXACC of a frame in flight that decodes runs its instruction (41_framer.md R124). -/
theorem step_txAcc_frame {s : State} {rest : List Input} {i : Instr} (h : s.env.inputs = .txAcc :: rest)
    (hs : s.blk.phase = .sending) (hi : decode (.wire s.inFlight) = .ok i) : step s = exec i s.pop := by
  rw [step_txAcc h, exec_wire _ (encode_of_decode_wire hi)]
  exact (sendBeat_inFlight (by exact hs) rfl).symm

/-- Settles O60: by the fetch of each of the two inputs. -/
theorem stepRunsDecodedInstruction : Obligations.StepRunsDecodedInstruction := by
  intro s rest i
  refine ⟨fun v h hi => ?_, fun h hs hi => ?_⟩
  · cases hi
    rw [← pop_eq h]
    exact step_hostWr_cmd h
  · rw [← pop_eq h]
    exact step_txAcc_frame h hs hi

end Sys2Proof.Machine

/-! SUPPORT. The laws of the byte sum (40_checksum.md R106), in the ring of 16-bit words: O6. -/

namespace Sys2Proof

/-- Bytes that are the same summand of sum16 are the same (40_checksum.md R100). -/
theorem setWidth_byte_injective : Function.Injective (BitVec.setWidth 16 : Byte → Half) := by
  intro x y h
  have hnat := congrArg BitVec.toNat h
  simp only [BitVec.toNat_setWidth] at hnat
  exact BitVec.eq_of_toNat_eq (by omega)

theorem setWidth_byte_add {x d : Byte} (h : x.toNat + d.toNat ≤ 255) :
    (x + d).setWidth 16 = x.setWidth 16 + d.setWidth 16 := by
  apply BitVec.eq_of_toNat_eq
  simp only [BitVec.toNat_setWidth, BitVec.toNat_add]
  omega

theorem setWidth_byte_sub {x d : Byte} (h : d.toNat ≤ x.toNat) :
    (x - d).setWidth 16 = x.setWidth 16 - d.setWidth 16 := by
  have hfit : (x - d).toNat + d.toNat ≤ 255 := by
    rw [BitVec.toNat_sub_of_le h]
    omega
  rw [eq_sub_iff_add_eq, ← setWidth_byte_add hfit, sub_add_cancel]

/-- The sum does not see the order of the bytes. -/
theorem sum16_perm {bs cs : List Byte} (h : bs.Perm cs) : sum16 bs = sum16 cs := by
  rw [sum16, sum16, (h.map _).sum_eq]

theorem sum16_append (bs cs : List Byte) : sum16 (bs ++ cs) = sum16 bs + sum16 cs := by
  apply BitVec.eq_of_toNat_eq
  simp [sum16_toNat]

/-- Replacing a byte moves the sum by the difference of the two. -/
theorem sum16_set {bs : List Byte} {i : Nat} (hi : i < bs.length) (x : Byte) :
    sum16 (bs.set i x) = sum16 bs - bs[i].setWidth 16 + x.setWidth 16 := by
  rw [sum16_perm (List.set_perm_cons_eraseIdx hi x), ← sum16_perm (List.getElem_cons_eraseIdx_perm hi), sum16_cons, sum16_cons]
  ring

/-- Up to 257 bytes the sum is at most 257 * 255 = 65535. -/
theorem byte_total_lt {bs : List Byte} (h : bs.length ≤ 257) : (bs.map BitVec.toNat).sum < 65536 := by
  have hle : ∀ n ∈ bs.map BitVec.toNat, n ≤ 255 := by
    intro n hn
    obtain ⟨x, -, rfl⟩ := List.mem_map.1 hn
    exact Nat.le_of_lt_succ x.isLt
  have hsum := List.sum_le_card_nsmul _ _ hle
  rw [List.length_map, smul_eq_mul] at hsum
  omega

/-- Settles O6: sum16 sends concatenation to addition and ignores order; a replaced byte moves it by the difference. -/
theorem sumLaws : Obligations.SumLaws := by
  refine ⟨fun bs x => ?_, fun bs cs => ?_, fun bs h => ?_, fun bs i j hi hj => ?_, fun bs i j hi hj d hij hd hd' => ?_,
    fun bs i hi x hx h => ?_⟩
  · rw [sum16_append, BitVec.toNat_add, sum16_toNat [x]]
    simp
  · rw [sum16_append, BitVec.toNat_add]
  · rw [sum16_toNat, Nat.mod_eq_of_lt (byte_total_lt h)]
  · exact sum16_perm (List.set_set_perm hi hj)
  · rw [sum16_set (by simpa using hj), sum16_set hi, List.getElem_set_ne hij, setWidth_byte_add hd, setWidth_byte_sub hd']
    ring
  · rw [sum16_set hi, sub_add_eq_add_sub, sub_eq_iff_eq_add, add_right_inj] at h
    exact hx (setWidth_byte_injective h)

end Sys2Proof

/-! SUPPORT. What the checksum generator's command words do in an idle block (40_checksum.md R101 to R105): O1 to O4. -/

namespace Sys2Proof.Machine

/-- An operation that only completes leaves the block finished, FLAG as begin_op left it (00_scope.md R14). -/
theorem Block.beginOp_complete (b : Block) (o : Bool) (e : ErrCode) : b.beginOp.complete o e = b.finished o e := rfl

/-- What CKTX and CKRX do to a block once issued, `B` being their buffer (40_checksum.md R103, R104). -/
def Block.sumPrefix (b : Block) (B : Buf) (n : Nat) : Block :=
  if n > 16 then b.raise .badArg else { b with acc := B.sum n }.complete true .none

theorem Block.sumPrefix_le (b : Block) (B : Buf) {n : Nat} (h : n ≤ 16) :
    b.beginOp.sumPrefix B n = { b.finished true .none with acc := BitVec.ofNat 16 (B.total n % 65536) } := by
  rw [Block.sumPrefix, if_neg (Nat.not_lt.2 h), Buf.sum_eq_total]
  rfl

theorem Block.sumPrefix_gt (b : Block) (B : Buf) {n : Nat} (h : 16 < n) :
    b.beginOp.sumPrefix B n = b.finished false .badArg :=
  if_pos h

section Idle
variable {s : State} (hi : s.blk.phase = .idle) (a : Byte) (imm : Half)
include hi

theorem exec_nop_idle : exec (.nop a imm) s = .next (s.withBlk (s.blk.finished true .none)) :=
  congrArg Host.Outcome.next (issue_idle _ hi)

theorem exec_ckclr_idle : exec (.ckclr a imm) s = .next (s.withBlk { s.blk.finished true .none with acc := 0x0000#16 }) :=
  congrArg Host.Outcome.next (issue_idle _ hi)

theorem exec_ckadd_idle :
    exec (.ckadd a imm) s = .next (s.withBlk { s.blk.finished true .none with acc := s.blk.acc + a.setWidth 16 }) :=
  congrArg Host.Outcome.next (issue_idle _ hi)

theorem exec_cktx_idle : exec (.cktx a imm) s = .next (s.withBlk (s.blk.beginOp.sumPrefix s.blk.txbuf a.toNat)) :=
  congrArg Host.Outcome.next (issue_idle _ hi)

theorem exec_ckrx_idle : exec (.ckrx a imm) s = .next (s.withBlk (s.blk.beginOp.sumPrefix s.blk.rxbuf a.toNat)) :=
  congrArg Host.Outcome.next (issue_idle _ hi)

end Idle

/-- Adding a byte to a 16-bit word wraps at 65536 (40_checksum.md R102). -/
theorem add_byte_eq_ofNat (v : Half) (x : Byte) : v + x.setWidth 16 = BitVec.ofNat 16 ((v.toNat + x.toNat) % 65536) := by
  apply BitVec.eq_of_toNat_eq
  simp

/-- Settles O1: the operation completes, CKCLR after clearing ACC. -/
theorem nopCompletesAndCkclrClearsAcc : Obligations.NopCompletesAndCkclrClearsAcc := fun a imm _ hi =>
  ⟨by simp [decodeCmd], by simp [decodeCmd], exec_nop_idle hi a imm, exec_ckclr_idle hi a imm⟩

/-- Settles O2: the 16-bit sum of ACC and the byte is their sum modulo 65536. -/
theorem ckaddAddsByteWithWrap : Obligations.CkaddAddsByteWithWrap := by
  intro a imm s hi
  refine ⟨by simp [decodeCmd], ?_⟩
  rw [exec_ckadd_idle hi, add_byte_eq_ofNat]

/-- Settles O3: by the two ranges of A. -/
theorem cktxSumsTxbuf : Obligations.CktxSumsTxbuf := by
  intro a imm s hi
  rw [exec_cktx_idle hi]
  exact ⟨by simp [decodeCmd], fun h => by rw [Block.sumPrefix_le _ _ h], fun h => by rw [Block.sumPrefix_gt _ _ h]⟩

/-- Settles O4: by the two ranges of A. -/
theorem ckrxSumsRxbuf : Obligations.CkrxSumsRxbuf := by
  intro a imm s hi
  rw [exec_ckrx_idle hi]
  exact ⟨by simp [decodeCmd], fun h => by rw [Block.sumPrefix_le _ _ h], fun h => by rw [Block.sumPrefix_gt _ _ h]⟩

end Sys2Proof.Machine

/-! SUPPORT. The command framer (41_framer.md R120 to R124): what BUILD, LDCMD and SEND do in an idle block (O7, O12, O13), the frame
LDCMD loads (O17), the TXACC event (O15) and a whole send phase (O18). -/

namespace Sys2Proof.Machine

/-! ## BUILD, LDCMD and SEND -/

section Idle
variable {s : State} (hi : s.blk.phase = .idle) {a : Byte} (imm : Half)
include hi

/-- BUILD of a frame length injects the checksum and takes the frame as the one to send (41_framer.md R121). -/
theorem exec_build_idle {L : FrameLen} (hL : frameLen? a.toNat = some L) :
    exec (.build a imm) s = .next (s.withBlk ((s.blk.beginOp.buildFrame L).complete true .none)) := by
  simp only [exec, execBuild, issue_idle _ hi, hL]

theorem exec_build_badLength (hL : frameLen? a.toNat = none) :
    exec (.build a imm) s = .next (s.withBlk (s.blk.finished false .badArg)) := by
  simp only [exec, execBuild, issue_idle _ hi, hL]
  rfl

/-- LDCMD of a parameter out of range reports VALIDATION and forgets the loaded command (41_framer.md R122). -/
theorem exec_ldcmd_outOfRange {k : Kind} (hk : Kind.ofByte? a = some k) (hp : paramOk s.params k imm = false) :
    exec (.ldcmd a imm) s = .next (s.withBlk { s.blk.finished false .validation with kvalid := false }) := by
  simp only [exec, execLdcmd, issue_idle _ hi, hk, hp]
  rfl

theorem exec_send_idle (hlen : s.blk.txlen ≠ 0#5) :
    exec (.send a imm) s =
      .next (s.withBlk { s.blk.started with txpos := 0#5, chain := false, phase := .sending }) := by
  rw [exec, execSend, issue_idle _ hi, if_neg (by exact hlen)]
  rfl

/-- SEND with nothing built reports BAD_ARG (41_framer.md R123). -/
theorem exec_send_empty (hlen : s.blk.txlen = 0#5) :
    exec (.send a imm) s = .next (s.withBlk (s.blk.finished false .badArg)) := by
  rw [exec, execSend, issue_idle _ hi, if_pos (by exact hlen)]
  rfl

end Idle

theorem paramOk_setPressure_eq_false {P : Params} {p : Half} (h : p.toNat < 700 ∨ 1100 < p.toNat) :
    paramOk P .setPressure p = false :=
  decide_eq_false fun ⟨hlo, hhi⟩ => h.elim (Nat.not_lt.2 hlo) (Nat.not_lt.2 hhi)

theorem paramOk_setSpc_eq_false {P : Params} {t : Half} (h : t.toNat < 400 ∨ P.spcMax.val.toNat < t.toNat) :
    paramOk P .setSpc t = false :=
  decide_eq_false fun ⟨hlo, hhi⟩ => h.elim (Nat.not_lt.2 hlo) (Nat.not_lt.2 hhi)

/-- Settles O7: by the two ranges of A. The new TXBUF is the injected one: its last two bytes verify, the others are the old ones. -/
theorem buildInjectsChecksum : Obligations.BuildInjectsChecksum := by
  intro a imm s hi
  refine ⟨by simp [decodeCmd], fun h => ?_, fun h => exec_build_badLength hi imm (frameLen?_eq_none h)⟩
  refine ⟨(s.blk.inject ⟨a.toNat, h⟩).txbuf, ?_, s.blk.inject_goodFrame _, s.blk.inject_getElem_other ⟨a.toNat, h⟩⟩
  rw [exec_build_idle hi imm (frameLen?_eq_some h), ← Buf.sum_eq_total]
  rfl

/-- Settles O12: by the kind, then by the range of its parameter. -/
theorem ldcmdRejectsBadOperands : Obligations.LdcmdRejectsBadOperands := by
  intro a imm s hi
  refine ⟨by simp [decodeCmd], fun ha => ?_, fun ha h => ?_, fun ha h => ?_⟩
  · exact exec_ldcmd_unknown imm hi ((Kind.ofByte?_eq_none_iff a).2 ha)
  · exact exec_ldcmd_outOfRange hi imm (ha ▸ Kind.ofByte?_code .setPressure) (paramOk_setPressure_eq_false h)
  · exact exec_ldcmd_outOfRange hi imm (ha ▸ Kind.ofByte?_code .setSpc) (paramOk_setSpc_eq_false h)

/-- Settles O13: by whether a frame was built. -/
theorem sendStartsSendPhase : Obligations.SendStartsSendPhase := fun _ imm _ hi =>
  ⟨by simp [decodeCmd], exec_send_idle hi imm, exec_send_empty hi imm⟩

/-! ## The frame LDCMD loads -/

/-- The wire frame of a loaded command: the parameter and the checksum are those of its template (41_framer.md R122). -/
def loadedInstr (P : Params) (k : Kind) (imm : Half) : Instr :=
  let ck := sum16 (template P k imm)
  match k with
  | .readConc => .frameReadConc P.lfReadConc ck
  | .setPressure => .frameSetPressure P.lfSetPressure imm ck
  | .spcStatus => .frameSpcStatus P.lfSpcStatus ck
  | .setSpc => .frameSetSpc P.lfSetSpc imm ck

/-- A parameter in range makes the frame well formed: the template's sum is the closed form (43_exchange_and_commands.md R171 to
R174). -/
theorem loadedInstr_wf {P : Params} {k : Kind} {imm : Half} (h : paramOk P k imm = true) :
    (loadedInstr P k imm).wf P = true := by
  cases k with
  | readConc | spcStatus => simp [loadedInstr, Instr.wf, template_sum, Params.lenField]
  | setPressure | setSpc =>
    simp only [paramOk] at h
    simp [loadedInstr, Instr.wf, template_sum, Params.lenField, h]

theorem encode_loadedInstr (P : Params) (k : Kind) (imm : Half) :
    encode (loadedInstr P k imm) =
      .wire (template P k imm ++ [hi (sum16 (template P k imm)), lo (sum16 (template P k imm))]) := by
  cases k <;> rfl

/-- LDCMD leaves in TXBUF[0..TXLEN-1] the template and its checksum (41_framer.md R122). -/
theorem Block.loadFrame_frame (P : Params) (b : Block) (k : Kind) (imm : Half) :
    (b.loadFrame P k imm).txbuf.toList.take (b.loadFrame P k imm).txlen.toNat =
      template P k imm ++ [hi (sum16 (template P k imm)), lo (sum16 (template P k imm))] := by
  have hlen : (b.loadFrame P k imm).txlen.toNat = (cmdLen k).val := pos_ofNat_toNat (cmdLen k)
  rw [hlen, Block.loadFrame_txbuf]
  exact List.take_left' (by simp [← template_length P k imm])

/-- Settles O17: OK = 1 only after the frame of a known kind and an accepted parameter was loaded; that frame is `loadedInstr`'s. -/
theorem ldcmdLoadsWellFormedFrame : Obligations.LdcmdLoadsWellFormedFrame := by
  intro a imm s t hi ht hok
  obtain ⟨k, -, hp, rfl⟩ := exec_ldcmd_ok hi ht hok
  refine ⟨loadedInstr s.params k imm, loadedInstr_wf hp, ?_⟩
  rw [encode_loadedInstr, ← s.blk.beginOp.loadFrame_frame]
  rfl

/-! ## The send phase -/

/-- Settles O15: a TXACC input is the TXACC event, by whether the byte is the last and whose frame it ends. -/
theorem txaccSendsByteAtTxpos : Obligations.TxaccSendsByteAtTxpos := by
  intro s rest hin hs h
  obtain rfl : s.env.inputs.tail = rest := congrArg List.tail hin
  dsimp only
  rw [step_txAcc hin]
  refine ⟨fun hmore => ?_, fun hlast hc => ?_, fun hlast hc k hk => ?_⟩
  · exact txAcc_more (s := s.pop) hs h hmore
  · rw [txAcc_last_of_send (s := s.pop) hs h hlast hc, Block.complete_of_not_chain _ _ (by exact hc)]
    rfl
  · exact txAcc_last_of_xchg (s := s.pop) hs h hlast hc hk

/-- One more step after a run. -/
theorem run_succ_eq_step {n : Nat} : ∀ {s t : State}, run n s = .next t → run (n + 1) s = step t := by
  induction n with
  | zero =>
    intro s t h
    cases h
    simp only [run]
    cases step s <;> rfl
  | succ n ih =>
    intro s t h
    rw [run] at h ⊢
    cases hstep : step s with
    | next u => rw [hstep] at h; exact ih h
    | fault f => rw [hstep] at h; cases h
    | refused r => rw [hstep] at h; cases h

/-- The state whose first `n` bytes of TXBUF were sent in a send phase that began in `s`, with the inputs `rest` to come. -/
def State.sentFirst (s : State) (n : Nat) (rest : List Input) : State :=
  { s with
    blk := { s.blk with txpos := BitVec.ofNat 5 n }
    env := { s.env with inputs := rest, txStream := s.env.txStream ++ s.blk.txbuf.toList.take n } }

theorem State.sentFirst_txpos_toNat (s : State) {n : Nat} (rest : List Input) (h : n < 16) :
    (s.sentFirst n rest).blk.txpos.toNat = n :=
  (BitVec.toNat_ofNat ..).trans (Nat.mod_eq_of_lt (by omega))

theorem State.sentFirst_zero {s : State} (h0 : s.blk.txpos = 0#5) : s.sentFirst 0 s.env.inputs = s := by
  rw [State.sentFirst, ← h0, List.take_zero, List.append_nil]

/-- The first `n + 1` bytes are the first `n` and the byte at offset `n`. -/
theorem Buf.take_succ (B : Buf) {n : Nat} (h : n < 16) : B.toList.take (n + 1) = B.toList.take n ++ [B[n]] := by
  rw [List.take_succ_eq_append_getElem (by simpa using h), Vector.getElem_toList]

section SendPhase
variable {s : State} (hs : s.blk.phase = .sending) {n : Nat} (rest : List Input)
include hs

/-- Before the last byte an acceptance sends one byte more (41_framer.md R124). -/
theorem step_sentFirst_more (hn : n + 1 < s.blk.txlen.toNat) (h16 : s.blk.txlen.toNat ≤ 16) :
    step (s.sentFirst n (.txAcc :: rest)) = .next (s.sentFirst (n + 1) rest) := by
  have hpos := s.sentFirst_txpos_toNat (.txAcc :: rest) (show n < 16 by omega)
  obtain ⟨hmore, -, -⟩ := txaccSendsByteAtTxpos (s.sentFirst n (.txAcc :: rest)) rest rfl hs (by omega)
  rw [hmore (by rw [hpos]; exact hn.ne)]
  simp only [hpos]
  simp [State.sentFirst, Buf.take_succ _ (show n < 16 by omega)]

/-- The acceptance of the last byte completes a SEND (41_framer.md R124). -/
theorem step_sentFirst_last (hn : n + 1 = s.blk.txlen.toNat) (h16 : s.blk.txlen.toNat ≤ 16) (hc : s.blk.chain = false) :
    step (s.sentFirst n (.txAcc :: rest)) = .next
      { s.sentFirst (n + 1) rest with
        blk := { (s.sentFirst (n + 1) rest).blk with phase := .idle, done := true, ok := true, err := .none } } := by
  have hpos := s.sentFirst_txpos_toNat (.txAcc :: rest) (show n < 16 by omega)
  obtain ⟨-, hlast, -⟩ := txaccSendsByteAtTxpos (s.sentFirst n (.txAcc :: rest)) rest rfl hs (by omega)
  rw [hlast (by rw [hpos]; exact hn) hc]
  simp only [hpos]
  simp [State.sentFirst, Buf.take_succ _ (show n < 16 by omega)]

/-- As long as the frame has more bytes, `n` acceptances send its first `n` bytes, whoever started the send phase. -/
theorem run_sentFirst (h0 : s.blk.txpos = 0#5) (hn : n < s.blk.txlen.toNat) (h16 : s.blk.txlen.toNat ≤ 16)
    (hin : s.env.inputs = List.replicate n .txAcc ++ rest) : run n s = .next (s.sentFirst n rest) := by
  induction n generalizing rest with
  | zero =>
    obtain rfl : s.env.inputs = rest := hin
    rw [run, State.sentFirst_zero h0]
  | succ n ih =>
    rw [List.replicate_succ', List.append_assoc, List.singleton_append] at hin
    rw [run_succ_eq_step (ih (.txAcc :: rest) (by omega) hin)]
    exact step_sentFirst_more hs rest hn h16

end SendPhase

/-- Settles O18: all bytes but the last by `run_sentFirst`, then the last one. -/
theorem sendPhaseEmitsWholeFrame : Obligations.SendPhaseEmitsWholeFrame := by
  intro s rest hs hc h0 hpos h16 hin
  obtain ⟨n, hn⟩ := Nat.exists_eq_succ_of_ne_zero hpos.ne'
  rw [hn, List.replicate_succ', List.append_assoc, List.singleton_append] at hin
  have hend : BitVec.ofNat 5 (n + 1) = s.blk.txlen := by simp [← Nat.succ_eq_add_one, ← hn]
  rw [hn, run_succ_eq_step (run_sentFirst hs _ h0 (by omega) h16 hin), step_sentFirst_last hs rest hn.symm h16 hc]
  simp only [State.sentFirst, hend]

end Sys2Proof.Machine

/-! SUPPORT. The response parser's command words (42_parser.md R141, R144 to R149): what RECV, VERIFY, VFYTX and the extractions do in
an idle block (O20 to O25), and the round trip of the frames BUILD and LDCMD make (O14). -/

namespace Sys2Proof.Machine

/-! ## RECV -/

/-- RECV of a frame length starts the receive phase, CKOK cleared (42_parser.md R141). -/
theorem exec_recv_idle {s : State} (hi : s.blk.phase = .idle) {a : Byte} (imm : Half) {L : FrameLen}
    (hL : frameLen? a.toNat = some L) :
    exec (.recv a imm) s = .next (s.withBlk ({ s.blk.started with ckok := false, chain := false }.startRx L)) := by
  simp only [exec, execRecv, issue_idle _ hi, hL]
  rfl

theorem exec_recv_badLength {s : State} (hi : s.blk.phase = .idle) {a : Byte} (imm : Half) (hL : frameLen? a.toNat = none) :
    exec (.recv a imm) s = .next (s.withBlk { s.blk.finished false .badArg with ckok := false }) := by
  simp only [exec, execRecv, issue_idle _ hi, hL]
  rfl

/-- Settles O20: by the two ranges of A. -/
theorem recvStartsReceivePhase : Obligations.RecvStartsReceivePhase := fun _ imm _ hi =>
  ⟨by simp [decodeCmd], fun h2 h16 => exec_recv_idle hi imm (frameLen?_eq_some ⟨h2, h16⟩),
    fun h => exec_recv_badLength hi imm (frameLen?_eq_none h)⟩

/-! ## VERIFY and VFYTX -/

/-- What VERIFY and VFYTX do to a block once issued, `B` being their buffer (42_parser.md R144, R145). -/
def Block.checkFrame (b : Block) (B : Buf) (n : Nat) : Block :=
  match frameLen? n with
  | none => b.clearCkok.raise .badArg
  | some L => b.clearCkok.verified B L

section CheckFrame
variable (b : Block) {B : Buf} {n : Nat}

theorem Block.checkFrame_good {L : FrameLen} (hL : frameLen? n = some L) (hg : B.goodFrame L) :
    b.beginOp.checkFrame B n = { b.finished true .none with ckok := true, acc := B.sum (L.val - 2) } := by
  simp only [Block.checkFrame, hL, Block.verified, (Buf.verifies_iff B L).2 hg]
  rfl

theorem Block.checkFrame_bad {L : FrameLen} (hL : frameLen? n = some L) (hg : ¬ B.goodFrame L) :
    b.beginOp.checkFrame B n = { b.finished false .checksum with ckok := false, acc := B.sum (L.val - 2) } := by
  simp only [Block.checkFrame, hL, Block.verified, (Buf.verifies_eq_false_iff B L).2 hg]
  rfl

theorem Block.checkFrame_badLength (hL : frameLen? n = none) :
    b.beginOp.checkFrame B n = { b.finished false .badArg with ckok := false } := by
  simp only [Block.checkFrame, hL]
  rfl

end CheckFrame

theorem exec_verify_idle {s : State} (hi : s.blk.phase = .idle) (a : Byte) (imm : Half) :
    exec (.verify a imm) s = .next (s.withBlk (s.blk.beginOp.checkFrame s.blk.rxbuf a.toNat)) :=
  congrArg Host.Outcome.next (issue_idle _ hi)

theorem exec_vfytx_idle {s : State} (hi : s.blk.phase = .idle) (a : Byte) (imm : Half) :
    exec (.vfytx a imm) s = .next (s.withBlk (s.blk.beginOp.checkFrame s.blk.txbuf a.toNat)) :=
  congrArg Host.Outcome.next (issue_idle _ hi)

/-- Settles O21: by the range of A, then by whether the last two bytes hold the sum. -/
theorem verifyComparesRxbuf : Obligations.VerifyComparesRxbuf := by
  intro a imm s hi
  simp only [exec_verify_idle hi, ← Buf.sum_eq_total]
  refine ⟨by simp [decodeCmd], fun h => ⟨fun hg => ?_, fun hg => ?_⟩, fun h => ?_⟩
  · rw [Block.checkFrame_good _ (frameLen?_eq_some h) hg]
  · rw [Block.checkFrame_bad _ (frameLen?_eq_some h) hg]
  · rw [Block.checkFrame_badLength _ (frameLen?_eq_none h)]

/-- Settles O22: as O21, over TXBUF. -/
theorem vfytxComparesTxbuf : Obligations.VfytxComparesTxbuf := by
  intro a imm s hi
  simp only [exec_vfytx_idle hi, ← Buf.sum_eq_total]
  refine ⟨by simp [decodeCmd], fun h => ⟨fun hg => ?_, fun hg => ?_⟩, fun h => ?_⟩
  · rw [Block.checkFrame_good _ (frameLen?_eq_some h) hg]
  · rw [Block.checkFrame_bad _ (frameLen?_eq_some h) hg]
  · rw [Block.checkFrame_badLength _ (frameLen?_eq_none h)]

/-- VFYTX of a frame in TXBUF that holds its checksum (42_parser.md R145). -/
theorem exec_vfytx_good {s : State} (hi : s.blk.phase = .idle) {a : Byte} (imm : Half) {L : FrameLen}
    (hL : frameLen? a.toNat = some L) (hg : s.blk.txbuf.goodFrame L) :
    exec (.vfytx a imm) s = .next (s.withBlk
      { s.blk.finished true .none with ckok := true, acc := s.blk.txbuf.sum (L.val - 2) }) := by
  rw [exec_vfytx_idle hi, Block.checkFrame_good _ hL hg]

/-- inject leaves the sum it has put behind the frame (41_framer.md R120). -/
theorem Block.inject_sum (b : Block) (L : FrameLen) : (b.inject L).txbuf.sum (L.val - 2) = b.txbuf.sum (L.val - 2) := by
  rw [Buf.sum_eq_total, Block.inject_total, ← Buf.sum_eq_total]

/-- The length of a command is a frame length operand (43_exchange_and_commands.md R170). -/
theorem frameLen?_cmdLen (k : Kind) : frameLen? (BitVec.ofNat 8 (cmdLen k).val).toNat = some (cmdLen k) := by
  cases k <;> rfl

/-- Settles O14: BUILD and a successful LDCMD end with inject, after which the frame verifies and ACC is its sum. -/
theorem builtFramesVerify : Obligations.BuiltFramesVerify := by
  refine ⟨fun a imm imm' s t hi h2 h16 ht => ?_, fun a imm imm' k s t hi hk ht hok => ?_⟩
  · have hL := frameLen?_eq_some ⟨h2, h16⟩
    rw [exec_build_idle hi imm hL] at ht
    cases ht
    exact ⟨_, exec_vfytx_good rfl imm' hL (Block.inject_goodFrame s.blk.beginOp _), rfl, rfl, Block.inject_sum _ _⟩
  · obtain ⟨k', hk', -, rfl⟩ := exec_ldcmd_ok hi ht hok
    obtain rfl : k = k' := Option.some.inj (hk.symm.trans hk')
    exact ⟨_, exec_vfytx_good rfl imm' (frameLen?_cmdLen k) (Block.inject_goodFrame _ _), rfl, rfl⟩

/-! ## The extractions -/

section Extract
variable {s : State} (hi : s.blk.phase = .idle) {a : Byte} (imm : Half)
include hi

theorem exec_getu8_idle (h : a.toNat < 16) :
    exec (.getu8 a imm) s = .next (s.withBlk
      { s.blk.finished true .none with result := s.blk.rxbuf[a.toNat].setWidth 32 }) := by
  rw [exec, execGetu8, issue_idle _ hi, dif_pos (by omega)]
  rfl

theorem exec_getu8_badOffset (h : 15 < a.toNat) :
    exec (.getu8 a imm) s = .next (s.withBlk (s.blk.finished false .badArg)) := by
  rw [exec, execGetu8, issue_idle _ hi, dif_neg (by omega)]
  rfl

theorem exec_getu16_idle (h : a.toNat + 1 < 16) :
    exec (.getu16 a imm) s = .next (s.withBlk
      { s.blk.finished true .none with
        result := (be16 s.blk.rxbuf[a.toNat] s.blk.rxbuf[a.toNat + 1]).setWidth 32 }) := by
  rw [exec, execGetu16, issue_idle _ hi, dif_pos (by omega)]
  rfl

theorem exec_getu16_badOffset (h : 14 < a.toNat) :
    exec (.getu16 a imm) s = .next (s.withBlk (s.blk.finished false .badArg)) := by
  rw [exec, execGetu16, issue_idle _ hi, dif_neg (by omega)]
  rfl

theorem exec_getu32_idle (h : a.toNat + 3 < 16) :
    exec (.getu32 a imm) s = .next (s.withBlk
      { s.blk.finished true .none with
        result := be32 s.blk.rxbuf[a.toNat] s.blk.rxbuf[a.toNat + 1] s.blk.rxbuf[a.toNat + 2] s.blk.rxbuf[a.toNat + 3] }) := by
  rw [exec, execGetu32, issue_idle _ hi, dif_pos (by omega)]
  rfl

theorem exec_getu32_badOffset (h : 12 < a.toNat) :
    exec (.getu32 a imm) s = .next (s.withBlk (s.blk.finished false .badArg)) := by
  rw [exec, execGetu32, issue_idle _ hi, dif_neg (by omega)]
  rfl

end Extract

/-- Settles O23: by the two ranges of A. -/
theorem getu8ExtractsByte : Obligations.Getu8ExtractsByte := by
  intro a imm s hi
  refine ⟨by simp [decodeCmd], fun h => ?_, exec_getu8_badOffset hi imm⟩
  rw [exec_getu8_idle hi imm h, BitVec.ofNat_toNat]

/-- Settles O24: by the two ranges of A. -/
theorem getu16ExtractsBigEndian : Obligations.Getu16ExtractsBigEndian := by
  intro a imm s hi
  refine ⟨by simp [decodeCmd], fun h => ?_, exec_getu16_badOffset hi imm⟩
  rw [exec_getu16_idle hi imm h, ← be16_toNat, BitVec.ofNat_toNat]

/-- Settles O25: by the two ranges of A. -/
theorem getu32ExtractsBigEndian : Obligations.Getu32ExtractsBigEndian := by
  intro a imm s hi
  refine ⟨by simp [decodeCmd], fun h => ?_, exec_getu32_badOffset hi imm⟩
  rw [exec_getu32_idle hi imm h, ← be32_toNat, BitVec.ofNat_toNat, BitVec.setWidth_eq]

end Sys2Proof.Machine

/-! SUPPORT. The receive phase (42_parser.md R142, R143): RXBYTE byte by byte (O26), TIMEOUT (O28), a whole RECV (O27), and the last
byte of an exchange (O36). -/

namespace Sys2Proof.Machine

/-! ## RXBYTE -/

/-- The byte goes to SHADOW[RXCNT], and RXCNT counts it (42_parser.md R142). -/
theorem Block.tookByte_eq {b : Block} (x : Byte) (h : b.rxcnt.toNat < 16) :
    b.tookByte x =
      { b with shadow := b.shadow.set b.rxcnt.toNat x, rxcnt := BitVec.ofNat 5 (b.rxcnt.toNat + 1) } := by
  rw [Block.tookByte, Buf.setIfInBounds_eq_set _ _ _ h, pos_succ_eq]

section RxByte
variable {s : State} {rest : List Input} {x : Byte} {more : List Byte} (hin : s.env.inputs = .rxByte :: rest)
  (hf : s.env.rxFifo = x :: more) (hs : s.blk.phase = .receiving) (hp : s.blk.rxcnt.toNat < 16)
include hin hf hs hp

/-- Before the last byte of a response an RXBYTE only takes the byte (42_parser.md R142). -/
theorem step_rxByte_more (hmore : s.blk.rxcnt.toNat + 1 ≠ s.blk.rxlen.toNat) :
    step s = .next { s with blk := s.blk.tookByte x, env := { s.env with inputs := rest, rxFifo := more } } := by
  have hne : s.blk.rxcnt + 1#5 ≠ s.blk.rxlen := fun he =>
    hmore ((pos_succ_toNat _ hp).symm.trans (congrArg BitVec.toNat he))
  rw [step_rxByte hin, rxByte_receiving (s := s.pop) hs hf, State.pop_blk, Block.afterRx_eq _ _ hp, if_neg hne, pop_eq hin]

/-- The last byte of a response ends the receive phase as rx_complete says (42_parser.md R142). -/
theorem step_rxByte_last (hlast : s.blk.rxcnt.toNat + 1 = s.blk.rxlen.toNat) {b : Block}
    (hb : (s.blk.tookByte x).rxComplete s.params = .ok b) :
    step s = .next { s with blk := b, env := { s.env with inputs := rest, rxFifo := more } } := by
  have he : s.blk.rxcnt + 1#5 = s.blk.rxlen := BitVec.eq_of_toNat_eq ((pos_succ_toNat _ hp).trans hlast)
  rw [step_rxByte hin, rxByte_receiving (s := s.pop) hs hf, State.pop_blk, State.pop_params, Block.afterRx_eq _ _ hp,
    if_pos he, hb, pop_eq hin]

end RxByte

/-- Settles O26: the block takes the byte. -/
theorem rxbyteCollectsIntoShadow : Obligations.RxbyteCollectsIntoShadow := by
  intro s rest x more hin hf hs h hmore
  rw [step_rxByte_more hin hf hs h hmore, Block.tookByte_eq x h]

/-! ## The end of a receive phase -/

/-- A matching frame of a RECV is copied (42_parser.md R142). -/
theorem Block.rxComplete_copied {P : Params} {b : Block} {L : FrameLen} (hL : frameLen? b.rxlen.toNat = some L)
    (hv : b.shadow.verifies L = true) (hc : b.chain = false) :
    b.rxComplete P = .ok ((b.accepted L).complete true .none) := by
  rw [Block.rxComplete_verified P b hL hv, hc]
  rfl

/-- An exchange's matching response is copied and decoded by kind (42_parser.md R142). -/
theorem Block.rxComplete_decoded {P : Params} {b : Block} {L : FrameLen} {k : Kind} (hL : frameLen? b.rxlen.toNat = some L)
    (hv : b.shadow.verifies L = true) (hc : b.chain = true) (hk : Kind.ofByte? b.kind = some k) :
    b.rxComplete P = .ok ((b.accepted L).decodeKind P k) := by
  rw [Block.rxComplete_verified P b hL hv, hc, hk]
  rfl

theorem Block.rxComplete_recvFails {P : Params} {b : Block} {L : FrameLen} (hL : frameLen? b.rxlen.toNat = some L)
    (hv : b.shadow.verifies L = false) (hc : b.chain = false) :
    b.rxComplete P = .ok ((b.rejected L).complete false .checksum) := by
  rw [Block.rxComplete_mismatch P b hL hv, hc]
  rfl

theorem Block.rxComplete_exchangeFails {P : Params} {b : Block} {L : FrameLen} (hL : frameLen? b.rxlen.toNat = some L)
    (hv : b.shadow.verifies L = false) (hc : b.chain = true) :
    b.rxComplete P = .ok ((b.rejected L).failKind .checksum) := by
  rw [Block.rxComplete_mismatch P b hL hv, hc]
  rfl

/-! ## TIMEOUT -/

/-- fail_kind answers the cached concentration to a READ_CONC command (43_exchange_and_commands.md R182). -/
theorem Block.failKind_eq (b : Block) (e : ErrCode) :
    b.failKind e = { b with result := if b.kind = 0x03#8 then b.conc else b.result }.complete false e := by
  unfold Block.failKind
  split <;> rfl

/-- Settles O28: by whether the receive phase is an exchange's. -/
theorem timeoutEndsReceivePhase : Obligations.TimeoutEndsReceivePhase := by
  intro s rest hin hs
  rw [step_timeout hin, pop_eq hin, timeout, if_pos (by exact hs)]
  cases hc : s.blk.chain with
  | true => simp [Block.failKind_eq, Block.complete]
  | false => simp [Block.complete]

/-! ## A whole RECV -/

/-- Writing one byte more is writing it behind the others. -/
theorem Buf.writeAt_concat (bs : List Byte) (x : Byte) (B : Buf) (i : Nat) :
    B.writeAt i (bs ++ [x]) = (B.writeAt i bs).setIfInBounds (i + bs.length) x := by
  induction bs generalizing B i with
  | nil => rfl
  | cons y ys ih =>
    rw [List.cons_append, Buf.writeAt, ih, Buf.writeAt, List.length_cons, Nat.add_right_comm, Nat.add_assoc]

/-- The first bytes of a buffer they were written to. -/
theorem Buf.first_writeAt (B : Buf) (bs : List Byte) (h : bs.length ≤ 16) : (B.writeAt 0 bs).first bs.length = bs := by
  rw [Buf.first, Buf.writeAt_zero_toList B bs h, List.take_left' rfl]

/-- verify(B, L) by the last two of the first L bytes (42_parser.md R140). -/
theorem Buf.verifies_iff_first (B : Buf) (L : FrameLen) :
    B.verifies L = true ↔
      (B.first L.val).drop (L.val - 2) = [hi (B.sum (L.val - 2)), lo (B.sum (L.val - 2))] := by
  obtain ⟨n, h2, h16⟩ := L
  obtain ⟨m, rfl⟩ := Nat.exists_eq_add_of_le' h2
  have hlast : (B.first (m + 2)).drop m = [B[m], B[m + 1]] := by
    rw [Buf.first, Buf.take_succ B (by omega), Buf.take_succ B (by omega), List.append_assoc]
    exact List.drop_left' (by simp; omega)
  simp only [Nat.add_sub_cancel, hlast, Buf.verifies, Bool.and_eq_true, beq_iff_eq, List.cons.injEq, and_true]
  exact and_congr eq_comm eq_comm

theorem Buf.first_take (B : Buf) {m n : Nat} (h : m ≤ n) : (B.first n).take m = B.first m := by
  rw [Buf.first, List.take_take, Nat.min_eq_left h, Buf.first]

/-- The sum of the first of the bytes that were just written. -/
theorem Buf.sum_writeAt_take (B : Buf) {bs : List Byte} {m : Nat} (h16 : bs.length ≤ 16) (h : m ≤ bs.length) :
    (B.writeAt 0 bs).sum m = sum16 (bs.take m) := by
  rw [Buf.sum, ← Buf.first_take _ h, Buf.first_writeAt B bs h16]

/-- A frame that was just written verifies when its last two bytes hold the sum of the others (42_parser.md R140). -/
theorem Buf.verifies_writeAt (B : Buf) (bs : List Byte) (h : 2 ≤ bs.length ∧ bs.length ≤ 16) :
    let sum := sum16 (bs.take (bs.length - 2))
    (B.writeAt 0 bs).verifies ⟨bs.length, h⟩ = true ↔ bs.drop (bs.length - 2) = [hi sum, lo sum] := by
  rw [Buf.verifies_iff_first, Buf.first_writeAt B bs h.2, Buf.sum_writeAt_take B h.2 (Nat.sub_le _ 2)]

/-- The state whose receive phase, begun in `s`, has taken the bytes `taken`, with `fifo` and `rest` still to come. -/
def State.collected (s : State) (taken fifo : List Byte) (rest : List Input) : State :=
  { s with
    blk := { s.blk with rxcnt := BitVec.ofNat 5 taken.length, shadow := s.blk.shadow.writeAt 0 taken }
    env := { s.env with inputs := rest, rxFifo := fifo } }

theorem State.collected_rxcnt_toNat (s : State) {taken : List Byte} (fifo : List Byte) (rest : List Input)
    (h : taken.length < 16) : (s.collected taken fifo rest).blk.rxcnt.toNat = taken.length :=
  (BitVec.toNat_ofNat ..).trans (Nat.mod_eq_of_lt (by omega))

theorem State.collected_nil {s : State} (h0 : s.blk.rxcnt = 0#5) : s.collected [] s.env.rxFifo s.env.inputs = s := by
  rw [State.collected, List.length_nil, ← h0]
  rfl

/-- The block that takes one byte more has collected it. -/
theorem State.collected_tookByte (s : State) {taken : List Byte} (x : Byte) (fifo fifo' : List Byte) (rest rest' : List Input)
    (h : taken.length < 16) :
    (s.collected taken fifo rest).blk.tookByte x = (s.collected (taken ++ [x]) fifo' rest').blk := by
  simp only [Block.tookByte, s.collected_rxcnt_toNat fifo rest h, pos_succ_eq]
  simp [State.collected, Buf.writeAt_concat]

/-- The block at the end of a receive phase: SHADOW begins with the response (42_parser.md R142). -/
def Block.filled (b : Block) (bytes : List Byte) : Block :=
  { b with rxcnt := b.rxlen, shadow := b.shadow.writeAt 0 bytes }

theorem State.collected_blk (s : State) {bytes : List Byte} (fifo : List Byte) (rest : List Input)
    (h : bytes.length = s.blk.rxlen.toNat) : (s.collected bytes fifo rest).blk = s.blk.filled bytes := by
  simp [State.collected, Block.filled, h]

section ReceivePhase
variable {s : State} (hs : s.blk.phase = .receiving) {taken more : List Byte} {rest : List Input}
include hs

/-- Before the last byte of a response an RXBYTE collects one byte more (42_parser.md R142). -/
theorem step_collected_more {x : Byte} (h : taken.length + 1 < s.blk.rxlen.toNat) (h16 : s.blk.rxlen.toNat ≤ 16) :
    step (s.collected taken (x :: more) (.rxByte :: rest)) = .next (s.collected (taken ++ [x]) more rest) := by
  have hlt : taken.length < 16 := by omega
  have hcnt : (s.collected taken (x :: more) (.rxByte :: rest)).blk.rxcnt.toNat = taken.length :=
    s.collected_rxcnt_toNat _ _ hlt
  rw [step_rxByte_more (s := s.collected taken (x :: more) (.rxByte :: rest)) rfl rfl hs (by omega) (hcnt ▸ h.ne),
    s.collected_tookByte x _ more _ rest hlt]
  rfl

/-- As long as the response has more bytes, the RXBYTE events collect them in order, whoever started the receive phase. -/
theorem run_collected (h0 : s.blk.rxcnt = 0#5) (h : taken.length < s.blk.rxlen.toNat) (h16 : s.blk.rxlen.toNat ≤ 16)
    (hf : s.env.rxFifo = taken ++ more) (hin : s.env.inputs = List.replicate taken.length .rxByte ++ rest) :
    run taken.length s = .next (s.collected taken more rest) := by
  induction taken using List.reverseRecOn generalizing more rest with
  | nil =>
    obtain rfl : s.env.rxFifo = more := hf
    obtain rfl : s.env.inputs = rest := hin
    rw [State.collected_nil h0]
    rfl
  | append_singleton taken x ih =>
    simp only [List.length_append, List.length_singleton, List.replicate_succ', List.append_assoc, List.singleton_append]
      at h hf hin ⊢
    rw [run_succ_eq_step (ih (by omega) hf hin)]
    exact step_collected_more hs h h16

/-- The last byte of a response ends the receive phase with the whole response in SHADOW (42_parser.md R142). -/
theorem run_collected_last {bytes : List Byte} {b : Block} (h0 : s.blk.rxcnt = 0#5) (h2 : 2 ≤ s.blk.rxlen.toNat)
    (h16 : s.blk.rxlen.toNat ≤ 16) (hlen : bytes.length = s.blk.rxlen.toNat) (hf : s.env.rxFifo = bytes ++ more)
    (hin : s.env.inputs = List.replicate bytes.length .rxByte ++ rest)
    (hb : (s.blk.filled bytes).rxComplete s.params = .ok b) :
    run bytes.length s = .next { s with blk := b, env := { s.env with inputs := rest, rxFifo := more } } := by
  rw [← s.collected_blk more rest hlen] at hb
  obtain ⟨taken, x, rfl⟩ : ∃ taken x, bytes = taken ++ [x] :=
    ⟨_, _, (List.dropLast_append_getLast (List.ne_nil_of_length_pos (by omega))).symm⟩
  simp only [List.length_append, List.length_singleton, List.replicate_succ', List.append_assoc, List.singleton_append]
    at hlen hf hin ⊢
  have hlt : taken.length < 16 := by omega
  have hcnt : (s.collected taken (x :: more) (.rxByte :: rest)).blk.rxcnt.toNat = taken.length :=
    s.collected_rxcnt_toNat _ _ hlt
  rw [← s.collected_tookByte x (x :: more) more (.rxByte :: rest) rest hlt] at hb
  rw [run_succ_eq_step (run_collected hs h0 (by omega) h16 hf hin)]
  exact step_rxByte_last (s := s.collected taken (x :: more) (.rxByte :: rest)) rfl rfl hs (by omega) (hcnt ▸ hlen) hb

end ReceivePhase

/-- Settles O27: the bytes are collected by `run_collected_last`; the last two decide between `accepted` and `rejected`. -/
theorem receivePhaseDeliversOnlyGoodFrames : Obligations.ReceivePhaseDeliversOnlyGoodFrames := by
  intro s rest bytes more hs hc h0 h2 h16 hlen hf hin
  have hn : 2 ≤ bytes.length ∧ bytes.length ≤ 16 := hlen ▸ ⟨h2, h16⟩
  have hL : frameLen? s.blk.rxlen.toNat = some ⟨bytes.length, hn⟩ := hlen ▸ frameLen?_eq_some hn
  have hrun {b} := run_collected_last (b := b) hs h0 h2 h16 hlen hf hin
  have hshadow := Buf.writeAt_zero_toList s.blk.shadow bytes hn.2
  have hsum := Buf.sum_writeAt_take s.blk.shadow hn.2 (Nat.sub_le bytes.length 2)
  have hverify := Buf.verifies_writeAt s.blk.shadow bytes hn
  rw [← hsum] at hverify
  cases hv : (s.blk.shadow.writeAt 0 bytes).verifies ⟨bytes.length, hn⟩ with
  | true =>
    refine ⟨_, hrun (Block.rxComplete_copied hL hv hc), rfl, rfl, hsum, hshadow, fun _ => ⟨?_, ?_⟩,
      fun hne => absurd (hverify.1 hv) hne⟩
    · exact Block.complete_of_not_chain (b := (s.blk.filled bytes).accepted _) _ _ hc
    · show (s.blk.rxbuf.writeAt 0 ((s.blk.shadow.writeAt 0 bytes).first bytes.length)).toList = _
      rw [Buf.first_writeAt _ _ hn.2, Buf.writeAt_zero_toList _ _ hn.2]
  | false =>
    refine ⟨_, hrun (Block.rxComplete_recvFails hL hv hc), rfl, rfl, hsum, hshadow,
      fun he => absurd (hverify.2 he) (by simp [hv]), fun _ => ?_⟩
    exact Block.complete_of_not_chain (b := (s.blk.filled bytes).rejected _) _ _ hc

/-! ## The last byte of an exchange -/

/-- The response decode reads neither PHASE nor CHAIN, and completing the operation writes both (43_exchange_and_commands.md
R177). -/
theorem Block.decodeKind_idle (P : Params) (b : Block) (k : Kind) :
    { b with phase := .idle, chain := false }.decodeKind P k = b.decodeKind P k := by
  cases k <;> rfl

theorem Block.decodeKind_ckok (P : Params) (b : Block) (k : Kind) : (b.decodeKind P k).ckok = b.ckok := by
  obtain ⟨v, w, r, f, o, e, heq⟩ := b.decodeKind_completes P k
  rw [heq]
  rfl

theorem Block.decodeKind_rxbuf (P : Params) (b : Block) (k : Kind) : (b.decodeKind P k).rxbuf = b.rxbuf := by
  obtain ⟨v, w, r, f, o, e, heq⟩ := b.decodeKind_completes P k
  rw [heq]
  rfl

/-- While an operation is in flight its outcome is as begin_op left it (10_state.md R42). -/
theorem Block.OutcomeClear.beginOp_eq {b : Block} (h : b.OutcomeClear) : b.beginOp = b := by
  cases b
  obtain ⟨rfl, rfl, rfl, rfl⟩ := h
  rfl

theorem Block.complete_of_flag_clear {b : Block} (o : Bool) (e : ErrCode) (h : b.flag = false) :
    b.complete o e = b.finished o e := by
  simp [Block.complete, Block.finished, h]

theorem Buf.first_frame_length (B : Buf) (L : FrameLen) : (B.first L.val).length = L.val :=
  (B.first_length L.val).trans (Nat.min_eq_left L.property.2)

/-- The response copied to RXBUF stands before what RXBUF held behind it (42_parser.md R142). -/
theorem Buf.copied_toList (B sh : Buf) (L : FrameLen) :
    (B.writeAt 0 (sh.first L.val)).toList = sh.toList.take L.val ++ B.toList.drop L.val := by
  have hlen := sh.first_frame_length L
  rw [Buf.writeAt_zero_toList _ _ (hlen.trans_le L.property.2), hlen, Buf.first]

/-- The copied response has the sum of the one in SHADOW (42_parser.md R142). -/
theorem Buf.copied_sum (B sh : Buf) (L : FrameLen) :
    (B.writeAt 0 (sh.first L.val)).sum (L.val - 2) = sh.sum (L.val - 2) := by
  have hlen := sh.first_frame_length L
  rw [Buf.sum_writeAt_take B (hlen.trans_le L.property.2) ((Nat.sub_le L.val 2).trans_eq hlen.symm),
    Buf.first_take _ (Nat.sub_le L.val 2), Buf.sum]

/-- PARSE of a response that verifies sums it and decodes it by kind (43_exchange_and_commands.md R176). -/
theorem Block.parseFrame_verified (P : Params) {b : Block} {k : Kind} (h : b.rxbuf.verifies (rspLen k) = true) :
    b.parseFrame P k = { b with acc := b.rxbuf.sum ((rspLen k).val - 2), ckok := true }.decodeKind P k := by
  simp only [Block.parseFrame, h, if_true]

/-- The idle block whose RXBUF holds the response of length `L` that SHADOW held (42_parser.md R142). -/
def Block.holding (b : Block) (L : FrameLen) : Block :=
  { b with phase := .idle, chain := false, rxbuf := (b.accepted L).rxbuf }

/-- PARSE finds in RXBUF the response an exchange has copied there, and decodes it as the exchange does. -/
theorem Block.parseFrame_holding (P : Params) {b : Block} {k : Kind} {L : FrameLen} (ho : b.OutcomeClear) (hL : rspLen k = L)
    (hv : b.shadow.verifies L = true) :
    (b.holding L).beginOp.clearCkok.parseFrame P k = (b.accepted L).decodeKind P k := by
  subst hL
  have hsum : (b.holding (rspLen k)).clearCkok.rxbuf.sum ((rspLen k).val - 2) = b.shadow.sum ((rspLen k).val - 2) :=
    Buf.copied_sum ..
  have hver : (b.holding (rspLen k)).clearCkok.rxbuf.verifies (rspLen k) = true :=
    (Buf.verifies_iff ..).2 (Buf.copied_goodFrame b.rxbuf hv)
  rw [Block.OutcomeClear.beginOp_eq (b := b.holding (rspLen k)) ho, Block.parseFrame_verified P hver, hsum]
  exact Block.decodeKind_idle P (b.accepted (rspLen k)) k

/-- Settles O36: by whether SHADOW verifies; the invariant names the kind whose response length RXLEN is. -/
theorem exchangeEndsAsParseDoes : Obligations.ExchangeEndsAsParseDoes := by
  intro s rest x more hs hin hf hp hc hlast hx hL sh ended env
  obtain ⟨-, ho, -, -, -, hch⟩ := (Block.inv_receiving_iff hp).1 hs
  obtain ⟨-, -, -, hflag⟩ := id ho
  obtain ⟨hkv, hrsp⟩ := hch hc
  obtain ⟨k, hk, hkL⟩ := Option.map_eq_some_iff.1 hrsp
  have htook : s.blk.tookByte x = { s.blk with shadow := sh, rxcnt := s.blk.rxlen } := by
    rw [Block.tookByte_eq x hx, hlast, BitVec.ofNat_toNat, BitVec.setWidth_eq]
  have hstep {b} := step_rxByte_last (b := b) hin hf hp hx hlast
  rw [htook] at hstep
  refine ⟨fun hg => ?_, fun hg => ?_⟩
  · have hv := (Buf.verifies_iff sh _).2 hg
    refine ⟨_, hstep (Block.rxComplete_decoded (frameLen?_eq_some hL) hv hc hk), rfl, rfl, Block.decodeKind_ckok .., ?_,
      fun a imm => ?_⟩
    · rw [Block.decodeKind_rxbuf]
      exact Buf.copied_toList _ _ ⟨s.blk.rxlen.toNat, hL⟩
    · simp only [Block.decodeKind_rxbuf]
      refine (exec_parse a imm (by exact rfl) (by exact hkv) (by exact hk)).trans ?_
      exact congrArg (fun b => Host.Outcome.next (State.withBlk { s with env := env } b))
        (Block.parseFrame_holding s.params ho (Subtype.ext hkL) hv)
  · have hv := (Buf.verifies_eq_false_iff sh _).2 hg
    rw [hstep (Block.rxComplete_exchangeFails (frameLen?_eq_some hL) hv hc), Block.failKind_eq,
      Block.complete_of_flag_clear _ _ (by exact hflag), ← Buf.sum_eq_total]
    rfl

end Sys2Proof.Machine

/-! SUPPORT. The exchange sequencer and the commands it sends (43_exchange_and_commands.md): the frames LDCMD loads (O8 to O11), the
start of an exchange (O30), PARSE by kind (O31 to O35), and a whole exchange (O37). -/

namespace Sys2Proof

theorem be32_eq_ofNat (x y z w : Byte) :
    be32 x y z w = BitVec.ofNat 32 (x.toNat * 2 ^ 24 + y.toNat * 2 ^ 16 + z.toNat * 2 ^ 8 + w.toNat) := by
  rw [← be32_toNat, BitVec.ofNat_toNat, BitVec.setWidth_eq]

theorem Kind.ofByte?_of_code {x : Byte} {k : Kind} (h : x = k.code) : Kind.ofByte? x = some k := h ▸ Kind.ofByte?_code k

namespace Machine

/-! ## The frames LDCMD loads -/

/-- A successful LDCMD leaves the template of its kind and the template's sum before the old bytes of TXBUF (41_framer.md R122). -/
theorem exec_ldcmd_loads {s : State} (hidle : s.blk.phase = .idle) (k : Kind) {imm ck : Half}
    (hp : paramOk s.params k imm = true) (hck : sum16 (template s.params k imm) = ck) :
    ∃ tb : Buf,
      exec (.ldcmd k.code imm) s = .next (s.withBlk
        { s.blk.finished true .none with
          txbuf := tb, acc := ck, txlen := BitVec.ofNat 5 (cmdLen k).val, txpos := 0#5, kind := k.code, kvalid := true }) ∧
      tb.toList = template s.params k imm ++ [hi ck, lo ck] ++ s.blk.txbuf.toList.drop (cmdLen k).val ∧
      sum16 (tb.toList.take ((cmdLen k).val - 2)) = ck := by
  subst hck
  have htb := s.blk.beginOp.loadFrame_txbuf s.params k imm
  refine ⟨_, ?_, htb, ?_⟩
  · rw [exec_ldcmd hidle (Kind.ofByte?_code k) hp, Block.loadFrame_eq, Block.loadFrame_acc]
    rfl
  · rw [htb, ← template_length s.params k imm, List.append_assoc, Nat.add_sub_cancel, List.take_left]

/-- Settles O8: READ_CONC has no parameter, and its template sums to the closed form. -/
theorem ldcmdLoadsReadConcFrame : Obligations.LdcmdLoadsReadConcFrame := fun imm s hi =>
  exec_ldcmd_loads hi .readConc rfl (template_sum s.params .readConc imm)

/-- Settles O9: a pressure in range is accepted, and the template sums to the closed form. -/
theorem ldcmdLoadsSetPressureFrame : Obligations.LdcmdLoadsSetPressureFrame := fun p s hi hlo hhi =>
  exec_ldcmd_loads hi .setPressure (decide_eq_true ⟨hlo, hhi⟩) (template_sum s.params .setPressure p)

/-- Settles O10: as O8, for SPC_STATUS. -/
theorem ldcmdLoadsSpcStatusFrame : Obligations.LdcmdLoadsSpcStatusFrame := fun imm s hi =>
  exec_ldcmd_loads hi .spcStatus rfl (template_sum s.params .spcStatus imm)

/-- Settles O11: as O9, for a target in range. -/
theorem ldcmdLoadsSetSpcFrame : Obligations.LdcmdLoadsSetSpcFrame := fun t s hi hlo hhi =>
  exec_ldcmd_loads hi .setSpc (decide_eq_true ⟨hlo, hhi⟩) (template_sum s.params .setSpc t)

/-! ## The start of an exchange -/

/-- The block in which XCHG has started the exchange of a loaded command of length `L` (43_exchange_and_commands.md R175). -/
def Block.exchanging (b : Block) (L : FrameLen) : Block :=
  { b.beginOp.clearCkok.inject L with txpos := 0#5, chain := true, phase := .sending }

/-- Settles O30: by KVALID; the new TXBUF is the injected one. -/
theorem xchgStartsExchange : Obligations.XchgStartsExchange := by
  intro a imm s hi
  refine ⟨by simp [decodeCmd], fun hv => exec_xchg_unloaded a imm hi (by simp [hv]), fun hv h => ?_⟩
  refine ⟨(s.blk.inject ⟨_, h⟩).txbuf, ?_, s.blk.inject_goodFrame _, s.blk.inject_getElem_other ⟨_, h⟩⟩
  rw [exec_xchg a imm (L := ⟨_, h⟩) hi hv rfl, ← Buf.sum_eq_total]
  rfl

/-! ## PARSE -/

/-- PARSE of a response that does not verify sums it and fails by kind (43_exchange_and_commands.md R176). -/
theorem Block.parseFrame_mismatch (P : Params) {b : Block} {k : Kind} (h : b.rxbuf.verifies (rspLen k) = false) :
    b.parseFrame P k = { b with acc := b.rxbuf.sum ((rspLen k).val - 2), ckok := false }.failKind .checksum := by
  simp only [Block.parseFrame, h, Bool.false_eq_true, if_false]

section Parse
variable {s : State} (hi : s.blk.phase = .idle) (hv : s.blk.kvalid = true) {k : Kind} (hk : Kind.ofByte? s.blk.kind = some k)
  (a : Byte) (imm : Half)
include hi hv hk

/-- PARSE of a response that verifies decodes it by kind, its sum in ACC (43_exchange_and_commands.md R176). -/
theorem exec_parse_good (hg : s.blk.rxbuf.goodFrame (rspLen k)) :
    exec (.parse a imm) s = .next (s.withBlk
      ({ s.blk.started with
          ckok := true, acc := BitVec.ofNat 16 (s.blk.rxbuf.total ((rspLen k).val - 2) % 65536) }.decodeKind s.params k)) := by
  have hver : s.blk.beginOp.clearCkok.rxbuf.verifies (rspLen k) = true := (Buf.verifies_iff ..).2 hg
  rw [exec_parse a imm hi hv hk, Block.parseFrame_verified _ hver, ← Buf.sum_eq_total]
  rfl

/-- PARSE of a response that does not verify reports CHECKSUM (43_exchange_and_commands.md R176, R182). -/
theorem exec_parse_bad (hg : ¬ s.blk.rxbuf.goodFrame (rspLen k)) :
    exec (.parse a imm) s = .next (s.withBlk
      { s.blk.finished false .checksum with
        ckok := false, acc := BitVec.ofNat 16 (s.blk.rxbuf.total ((rspLen k).val - 2) % 65536),
        result := if s.blk.kind = 0x03#8 then s.blk.conc else s.blk.result }) := by
  have hver : s.blk.beginOp.clearCkok.rxbuf.verifies (rspLen k) = false := (Buf.verifies_eq_false_iff ..).2 hg
  rw [exec_parse a imm hi hv hk, Block.parseFrame_mismatch _ hver, Block.failKind_eq, ← Buf.sum_eq_total]
  rfl

end Parse

/-! ### The decode of each kind -/

section Decode
variable {b : Block}

/-- READ_CONC with status 0: the reading goes to CONC and RESULT (43_exchange_and_commands.md R178). -/
theorem Block.decodeReadConc_good (h : b.rxbuf[11] = 0x00#8) :
    b.decodeReadConc =
      { b with
        conc := be32 b.rxbuf[7] b.rxbuf[8] b.rxbuf[9] b.rxbuf[10]
        result := be32 b.rxbuf[7] b.rxbuf[8] b.rxbuf[9] b.rxbuf[10], warm := true }.complete true .none :=
  if_pos h

/-- READ_CONC with any other status answers the cached concentration (43_exchange_and_commands.md R178). -/
theorem Block.decodeReadConc_bad (h : b.rxbuf[11] ≠ 0x00#8) :
    b.decodeReadConc = { b with result := b.conc }.complete false .sensorStatus :=
  if_neg h

theorem Block.decodeSpcStatus_ready {P : Params} (h : b.rxbuf[P.spcReadyOff.val]'(by omega) = 0x00#8) :
    b.decodeSpcStatus P = { b with flag := true }.complete true .none := by
  rw [Block.decodeSpcStatus, h]
  rfl

/-- Not ready is an answer, not an error (43_exchange_and_commands.md R180). -/
theorem Block.decodeSpcStatus_notReady {P : Params} (h : b.rxbuf[P.spcReadyOff.val]'(by omega) ≠ 0x00#8) :
    b.decodeSpcStatus P = { b with flag := false }.complete false .none := by
  rw [Block.decodeSpcStatus, beq_eq_false_iff_ne.2 h]

theorem Block.decodeSetSpc_good (h : b.rxbuf[7] ≠ 0x00#8) :
    b.decodeSetSpc = { b with flag := true }.complete true .none := by
  rw [Block.decodeSetSpc, bne_iff_ne.2 h]
  rfl

/-- A zero flag is a SENSOR_STATUS error (43_exchange_and_commands.md R181). -/
theorem Block.decodeSetSpc_bad (h : b.rxbuf[7] = 0x00#8) :
    b.decodeSetSpc = { b with flag := false }.complete false .sensorStatus := by
  rw [Block.decodeSetSpc, h]
  rfl

end Decode

/-- Settles O31: by the status byte. -/
theorem parseDecodesReadConc : Obligations.ParseDecodesReadConc := by
  intro a imm s hi hv hkind hg
  rw [exec_parse_good (k := .readConc) hi hv (Kind.ofByte?_of_code hkind) a imm hg, ← be32_eq_ofNat]
  refine ⟨fun h => ?_, fun h => ?_⟩
  · rw [Block.decodeKind, Block.decodeReadConc_good (by exact h)]
    rfl
  · rw [Block.decodeKind, Block.decodeReadConc_bad (by exact h)]
    rfl

/-- Settles O32: the decode of SET_PRESSURE only completes. -/
theorem parseDecodesSetPressure : Obligations.ParseDecodesSetPressure := fun a imm _ hi hv hkind hg =>
  exec_parse_good (k := .setPressure) hi hv (Kind.ofByte?_of_code hkind) a imm hg

/-- Settles O33: by the ready byte. -/
theorem parseDecodesSpcStatus : Obligations.ParseDecodesSpcStatus := by
  intro a imm s hi hv hkind hg
  rw [exec_parse_good (k := .spcStatus) hi hv (Kind.ofByte?_of_code hkind) a imm hg]
  refine ⟨fun h => ?_, fun h => ?_⟩
  · rw [Block.decodeKind, Block.decodeSpcStatus_ready (by exact h)]
    rfl
  · rw [Block.decodeKind, Block.decodeSpcStatus_notReady (by exact h)]
    rfl

/-- Settles O34: by the flag byte. -/
theorem parseDecodesSetSpc : Obligations.ParseDecodesSetSpc := by
  intro a imm s hi hv hkind hg
  rw [exec_parse_good (k := .setSpc) hi hv (Kind.ofByte?_of_code hkind) a imm hg]
  refine ⟨fun h => ?_, fun h => ?_⟩
  · rw [Block.decodeKind, Block.decodeSetSpc_good (by exact h)]
    rfl
  · rw [Block.decodeKind, Block.decodeSetSpc_bad (by exact h)]
    rfl

/-- Settles O35: by KVALID, then by the mismatch of the checksum. -/
theorem parseReportsFailures : Obligations.ParseReportsFailures := fun a imm _ hi =>
  ⟨by simp [decodeCmd], fun hv => exec_parse_unloaded a imm hi (by simp [hv]), fun hv _ hk hg =>
    exec_parse_bad hi hv hk a imm hg⟩

/-! ## A whole exchange -/

/-- A run of `m + n` steps is one of `m` steps and then one of `n`. -/
theorem run_add {m : Nat} (n : Nat) : ∀ {s t : State}, run m s = .next t → run (m + n) s = run n t := by
  induction m with
  | zero =>
    intro s t h
    cases h
    rw [Nat.zero_add]
  | succ m ih =>
    intro s t h
    rw [Nat.add_right_comm]
    rw [run] at h ⊢
    cases hstep : step s with
    | next u => rw [hstep] at h; exact ih h
    | fault f => rw [hstep] at h; cases h
    | refused r => rw [hstep] at h; cases h

/-- The send phase of an exchange emits the whole frame, then the receive phase starts (41_framer.md R124). -/
theorem run_sendPhase_of_xchg {s : State} {rest : List Input} {k : Kind} (hs : s.blk.phase = .sending)
    (hc : s.blk.chain = true) (hk : Kind.ofByte? s.blk.kind = some k) (h0 : s.blk.txpos = 0#5) (hpos : 0 < s.blk.txlen.toNat)
    (h16 : s.blk.txlen.toNat ≤ 16) (hin : s.env.inputs = List.replicate s.blk.txlen.toNat .txAcc ++ rest) :
    run s.blk.txlen.toNat s = .next { s with
      blk := { s.blk with txpos := s.blk.txlen }.startRx (rspLen k)
      env := { s.env with inputs := rest, txStream := s.env.txStream ++ s.blk.txbuf.toList.take s.blk.txlen.toNat } } := by
  obtain ⟨n, hn⟩ := Nat.exists_eq_succ_of_ne_zero hpos.ne'
  rw [hn, List.replicate_succ', List.append_assoc, List.singleton_append] at hin
  have hlt : n < 16 := by omega
  have hsent := s.sentFirst_txpos_toNat (.txAcc :: rest) hlt
  have hend : BitVec.ofNat 5 (n + 1) = s.blk.txlen := by simp [← Nat.succ_eq_add_one, ← hn]
  obtain ⟨-, -, hlast⟩ := txaccSendsByteAtTxpos (s.sentFirst n (.txAcc :: rest)) rest rfl hs (by omega)
  rw [hn, run_succ_eq_step (run_sentFirst hs _ h0 (by omega) h16 hin), hlast (by rw [hsent]; exact hn.symm) hc k hk]
  simp only [hsent]
  simp [State.sentFirst, Buf.take_succ _ hlt, hend, Block.startRx]

/-- The last two bytes of a response hold the sum of the others, high byte first (42_parser.md R140). -/
def IsGoodResponse (resp : List Byte) : Prop :=
  resp.drop (resp.length - 2) =
    [hi (sum16 (resp.take (resp.length - 2))), lo (sum16 (resp.take (resp.length - 2)))]

/-- The receive phase of an exchange whose response verifies copies it to RXBUF and decodes it by kind (42_parser.md R142). -/
theorem run_receivePhase_of_xchg {s : State} {k : Kind} {resp more : List Byte} {rest : List Input}
    (hs : s.blk.phase = .receiving) (hc : s.blk.chain = true) (hk : Kind.ofByte? s.blk.kind = some k)
    (h0 : s.blk.rxcnt = 0#5) (hrx : s.blk.rxlen = BitVec.ofNat 5 (rspLen k).val) (hlen : resp.length = (rspLen k).val)
    (hgood : IsGoodResponse resp) (hf : s.env.rxFifo = resp ++ more)
    (hin : s.env.inputs = List.replicate resp.length .rxByte ++ rest) :
    run resp.length s = .next { s with
      blk := ((s.blk.filled resp).accepted (rspLen k)).decodeKind s.params k
      env := { s.env with inputs := rest, rxFifo := more } } := by
  have hrx' : s.blk.rxlen.toNat = (rspLen k).val := hrx ▸ pos_ofNat_toNat (rspLen k)
  have hn : 2 ≤ resp.length ∧ resp.length ≤ 16 := hlen ▸ (rspLen k).property
  have hL : rspLen k = ⟨resp.length, hn⟩ := Subtype.ext hlen.symm
  have hv : (s.blk.filled resp).shadow.verifies (rspLen k) = true := hL ▸ (Buf.verifies_writeAt s.blk.shadow resp hn).2 hgood
  have hlen? : frameLen? (s.blk.filled resp).rxlen.toNat = some (rspLen k) :=
    (congrArg frameLen? hrx').trans (frameLen?_eq_some (rspLen k).property)
  exact run_collected_last hs h0 (by omega) (by omega) (hlen.trans hrx'.symm) hf hin
    (Block.rxComplete_decoded hlen? hv hc hk)

/-- The block after an exchange has sent its frame and has copied the response `resp`, before the decode. -/
def Block.answered (b : Block) (k : Kind) (resp : List Byte) : Block :=
  (({ b with txpos := b.txlen }.startRx (rspLen k)).filled resp).accepted (rspLen k)

/-- RXBUF begins with the response (42_parser.md R142). -/
theorem Block.answered_rxbuf (b : Block) {k : Kind} {resp : List Byte} (hlen : resp.length = (rspLen k).val) :
    (b.answered k resp).rxbuf = b.rxbuf.writeAt 0 resp := by
  have h16 : resp.length ≤ 16 := hlen ▸ (rspLen k).property.2
  show b.rxbuf.writeAt 0 ((b.shadow.writeAt 0 resp).first (rspLen k).val) = _
  rw [← hlen, Buf.first_writeAt _ _ h16]

/-- An exchange whose frame is accepted and whose response verifies, from the start of its send phase to the decode (41_framer.md
R124, 42_parser.md R142). -/
theorem run_exchange {s : State} {k : Kind} {L : FrameLen} {resp more : List Byte} {rest : List Input}
    (hs : s.blk.phase = .sending) (hc : s.blk.chain = true) (hk : Kind.ofByte? s.blk.kind = some k) (h0 : s.blk.txpos = 0#5)
    (hL : s.blk.txlen.toNat = L.val) (hlen : resp.length = (rspLen k).val) (hgood : IsGoodResponse resp)
    (hf : s.env.rxFifo = resp ++ more)
    (hin : s.env.inputs = List.replicate L.val .txAcc ++ (List.replicate resp.length .rxByte ++ rest)) :
    run (L.val + resp.length) s = .next { s with
      blk := (s.blk.answered k resp).decodeKind s.params k
      env := { s.env with
        inputs := rest, rxFifo := more, txStream := s.env.txStream ++ s.blk.txbuf.toList.take L.val } } := by
  obtain ⟨h2, h16⟩ := L.property
  rw [← hL] at hin h2 h16 ⊢
  rw [run_add resp.length (run_sendPhase_of_xchg hs hc hk h0 (by omega) h16 hin)]
  exact run_receivePhase_of_xchg rfl hc hk rfl rfl hlen hgood hf rfl

/-- The host's XCHG word starts the exchange of the loaded command (43_exchange_and_commands.md R175). -/
theorem step_xchg {s : State} {L : FrameLen} {v : Word} {rest : List Input} (hi : s.blk.phase = .idle)
    (hv : s.blk.kvalid = true) (hL : s.blk.txlen.toNat = L.val) (hop : fieldOp v = 0x30#8)
    (hin : s.env.inputs = .hostWr s.params.base .word v :: rest) :
    step s = .next (s.pop.withBlk (s.blk.exchanging L)) := by
  rw [step_hostWr_cmd hin, decodeCmd, hop]
  exact exec_xchg (s := s.pop) _ _ hi hv hL

/-- A whole exchange of a loaded command, from the host's XCHG word to the decode of a response that verifies: the finalized frame
goes out (43_exchange_and_commands.md R175). -/
theorem run_xchg {s : State} {k : Kind} {v : Word} {resp more : List Byte} {rest : List Input} (hidle : s.blk.phase = .idle)
    (hv : s.blk.kvalid = true) (hk : Kind.ofByte? s.blk.kind = some k) (hL : s.blk.txlen.toNat = (cmdLen k).val)
    (hop : fieldOp v = 0x30#8) (hlen : resp.length = (rspLen k).val) (hgood : IsGoodResponse resp)
    (hf : s.env.rxFifo = resp ++ more)
    (hin : s.env.inputs = .hostWr s.params.base .word v ::
      (List.replicate (cmdLen k).val .txAcc ++ (List.replicate resp.length .rxByte ++ rest))) :
    let sum := s.blk.txbuf.sum ((cmdLen k).val - 2)
    run ((cmdLen k).val + resp.length + 1) s = .next { s with
      blk := ((s.blk.exchanging (cmdLen k)).answered k resp).decodeKind s.params k
      env := { s.env with
        inputs := rest, rxFifo := more
        txStream := s.env.txStream ++ (s.blk.txbuf.first ((cmdLen k).val - 2) ++ [hi sum, lo sum]) } } := by
  have htx : (s.blk.exchanging (cmdLen k)).txbuf.toList.take (cmdLen k).val = _ :=
    s.blk.beginOp.clearCkok.inject_take (cmdLen k)
  have hrun := run_exchange (s := s.pop.withBlk (s.blk.exchanging (cmdLen k))) rfl rfl hk rfl hL hlen hgood hf
    (congrArg List.tail hin)
  rw [State.withBlk_blk, htx] at hrun
  rw [run, step_xchg hidle hv hL hop hin]
  exact hrun

/-- A byte of a sequence written at offset 0, by the part of the sequence it stands in. -/
theorem Buf.writeAt_getElem_of_drop_take (B : Buf) {bs part : List Byte} {m n j : Nat} (hpart : (bs.drop m).take n = part)
    (hj : j < part.length) (h16 : m + j < 16) : (B.writeAt 0 bs)[m + j] = part[j] := by
  subst hpart
  simp only [List.length_take, List.length_drop] at hj
  rw [Buf.writeAt_getElem _ _ _ _ h16, dif_pos (by omega)]
  simp

/-- The decode of a READ_CONC response with status 0, by the response's bytes at offsets 7 to 11 (43_exchange_and_commands.md
R178). -/
theorem Block.decodeReadConc_of_response {b : Block} {B : Buf} {resp : List Byte} {x7 x8 x9 x10 : Byte}
    (hrx : b.rxbuf = B.writeAt 0 resp) (hbytes : (resp.drop 7).take 5 = [x7, x8, x9, x10, 0x00#8]) :
    b.decodeReadConc =
      { b with conc := be32 x7 x8 x9 x10, result := be32 x7 x8 x9 x10, warm := true }.complete true .none := by
  have hbyte {j : Nat} (hj : j < 5) : b.rxbuf[7 + j] = [x7, x8, x9, x10, 0x00#8][j] := by
    simp only [hrx]
    exact Buf.writeAt_getElem_of_drop_take B hbytes hj (by omega)
  have h7 : b.rxbuf[7] = x7 := hbyte (j := 0) (by decide)
  have h8 : b.rxbuf[8] = x8 := hbyte (j := 1) (by decide)
  have h9 : b.rxbuf[9] = x9 := hbyte (j := 2) (by decide)
  have h10 : b.rxbuf[10] = x10 := hbyte (j := 3) (by decide)
  rw [Block.decodeReadConc_good (hbyte (j := 4) (by decide)), h7, h8, h9, h10]

/-- Settles O37: the exchange by `run_xchg`; the decode finds status 0 at offset 11. -/
theorem readConcExchangeUpdatesReading : Obligations.ReadConcExchangeUpdatesReading := by
  intro s rest resp more v x7 x8 x9 x10 hidle hv hkind hlen hop hin hf h14 hbytes hck
  have hgood : IsGoodResponse resp := by
    rw [IsGoodResponse, h14]
    exact hck
  have hrun := run_xchg (k := .readConc) (rest := rest) hidle hv (Kind.ofByte?_of_code hkind) (congrArg BitVec.toNat hlen) hop
    h14 hgood hf (by rw [h14]; exact hin)
  have hrx := (s.blk.exchanging (cmdLen .readConc)).answered_rxbuf (k := .readConc) h14
  rw [h14, Block.decodeKind, Block.decodeReadConc_of_response hrx hbytes] at hrun
  refine ⟨_, hrun, rfl, rfl, rfl, rfl, rfl, rfl, be32_eq_ofNat .., rfl, ?_, rfl, rfl, rfl⟩
  rw [Block.complete_rxbuf, hrx, Buf.writeAt_zero_toList _ _ (by omega), ← h14, List.take_left]

end Machine

end Sys2Proof

/-! SUPPORT. What an error reported at a command word leaves as it was (60_exceptions.md R202), and so O53. -/

namespace Sys2Proof.Machine

/-- `c` ends an operation of `b` with an error: it is done and not OK, what R202 names is as `b` held it, and RESULT is too
or is CONC. ACC and KVALID are not in it, as some error paths write them. -/
abbrev Block.FailedFrom (b c : Block) : Prop :=
  c.done = true ∧ c.ok = false ∧ c.conc = b.conc ∧ c.warm = b.warm ∧ c.rxbuf = b.rxbuf ∧ c.txbuf = b.txbuf ∧
  c.txlen = b.txlen ∧ c.kind = b.kind ∧ (c.result = b.result ∨ c.result = b.conc)

theorem Block.raise_failedFrom (b : Block) (e : ErrCode) : b.FailedFrom (b.raise e) :=
  ⟨rfl, rfl, rfl, rfl, rfl, rfl, rfl, rfl, .inl rfl⟩

theorem Block.failKind_failedFrom (b : Block) (e : ErrCode) : b.FailedFrom (b.failKind e) := by
  refine Block.failKind_eq b e ▸ ⟨rfl, rfl, rfl, rfl, rfl, rfl, rfl, rfl, ?_⟩
  exact (ite_eq_or_eq _ _ _).symm

theorem Block.failKind_err (b : Block) (e : ErrCode) : (b.failKind e).err = e := by
  rw [Block.failKind_eq]
  rfl

/-- The decode of a verified response reports no error but SENSOR_STATUS (43_exchange_and_commands.md R178 to R181). -/
theorem Block.decodeKind_failedFrom {P : Params} {b : Block} {k : Kind} (herr : (b.decodeKind P k).err ≠ .none) :
    b.FailedFrom (b.decodeKind P k) ∧ (b.decodeKind P k).err = .sensorStatus := by
  cases k with
  | readConc =>
    by_cases hst : b.rxbuf[11] = 0x00#8
    · rw [Block.decodeKind, Block.decodeReadConc_good hst] at herr
      exact absurd rfl herr
    · rw [Block.decodeKind, Block.decodeReadConc_bad hst]
      exact ⟨⟨rfl, rfl, rfl, rfl, rfl, rfl, rfl, rfl, .inr rfl⟩, rfl⟩
  | setPressure | spcStatus => exact absurd rfl herr
  | setSpc =>
    by_cases hflag : b.rxbuf[7] = 0x00#8
    · rw [Block.decodeKind, Block.decodeSetSpc_bad hflag]
      exact ⟨⟨rfl, rfl, rfl, rfl, rfl, rfl, rfl, rfl, .inl rfl⟩, rfl⟩
    · rw [Block.decodeKind, Block.decodeSetSpc_good hflag] at herr
      exact absurd rfl herr

/-- PARSE of a loaded command reports no error but CHECKSUM and SENSOR_STATUS (43_exchange_and_commands.md R176). -/
theorem Block.parseFrame_failedFrom {P : Params} {b : Block} {k : Kind} (herr : (b.parseFrame P k).err ≠ .none) :
    b.FailedFrom (b.parseFrame P k) ∧ ((b.parseFrame P k).err = .checksum ∨ (b.parseFrame P k).err = .sensorStatus) := by
  cases hg : b.rxbuf.verifies (rspLen k) with
  | true =>
    rw [Block.parseFrame_verified P hg] at herr ⊢
    exact (Block.decodeKind_failedFrom herr).imp_right .inr
  | false =>
    rw [Block.parseFrame_mismatch P hg]
    exact ⟨Block.failKind_failedFrom { b with acc := b.rxbuf.sum _, ckok := false } .checksum, .inl (Block.failKind_err ..)⟩

/-- VERIFY and VFYTX report no error but CHECKSUM (42_parser.md R144, R145). -/
theorem Block.verified_failedFrom {b : Block} {B : Buf} {L : FrameLen} (herr : (b.verified B L).err ≠ .none) :
    b.FailedFrom (b.verified B L) ∧ (b.verified B L).err = .checksum := by
  unfold Block.verified at herr ⊢
  cases hg : B.verifies L with
  | true => simp [hg] at herr
  | false => exact ⟨⟨rfl, rfl, rfl, rfl, rfl, rfl, rfl, rfl, .inl rfl⟩, rfl⟩

/-- An error reported at a command word fails from the prepared block, and writes ACC only where a sum was compared. -/
theorem Block.Issued.failedFrom {P : Params} {b c : Block} (h : b.Issued P c) (hb : b.err = .none) (herr : c.err ≠ .none) :
    b.FailedFrom c ∧ (c.acc = b.acc ∨ c.err = .checksum ∨ c.err = .sensorStatus) := by
  cases h with
  | computes | builds | loads => exact absurd rfl herr
  | sends | receives | exchanges => exact absurd hb herr
  | loadFails e => exact ⟨Block.raise_failedFrom { b with kvalid := false } e, .inl rfl⟩
  | raises e => exact ⟨b.raise_failedFrom e, .inl rfl⟩
  | raisesCleared e => exact ⟨b.clearCkok.raise_failedFrom e, .inl rfl⟩
  | verifies B L => exact (Block.verified_failedFrom herr).imp_right fun he => .inr (.inl he)
  | parses k hv hk => exact (Block.parseFrame_failedFrom herr).imp_right .inr

/-- Of the command words that report an error only LDCMD writes KVALID: BUILD writes it only where it succeeds. -/
theorem exec_error_kvalid {i : Instr} {v : Word} {s t : State} (hv : encode i = .cmd v) (hi : s.blk.phase = .idle)
    (h : exec i s = .next t) (herr : t.blk.err ≠ .none) (hop : fieldOp v ≠ 0x11#8) : t.blk.kvalid = s.blk.kvalid := by
  have issued {op : Block → Block} (h : Host.Outcome.next (issue s op) = (.next t : Host.Outcome State Fault Refusal))
      (hop : (op s.blk.beginOp).err ≠ .none → (op s.blk.beginOp).kvalid = s.blk.kvalid) : t.blk.kvalid = s.blk.kvalid := by
    rw [issue_idle _ hi] at h
    cases h
    exact hop herr
  cases i with
  | nop | ckclr | ckadd | illegal => exact issued h fun _ => rfl
  | cktx | ckrx | send | recv | verify | vfytx | getu8 | getu16 | getu32 =>
    refine issued h fun _ => ?_
    split <;> rfl
  | build =>
    refine issued h fun he => ?_
    split at he
    · rfl
    · exact absurd rfl he
  | ldcmd =>
    cases hv
    simp at hop
  | xchg => rcases exec_xchg_cases hi h with rfl | ⟨-, L, -, rfl⟩ <;> rfl
  | parse =>
    rcases exec_parse_cases hi h with ⟨-, rfl⟩ | ⟨-, k, -, rfl⟩
    · rfl
    · obtain ⟨_, _, _, _, _, _, heq⟩ := s.blk.beginOp.clearCkok.parseFrame_completes s.params k
      rw [State.withBlk_blk, heq]
      rfl
  | frameReadConc | frameSetPressure | frameSpcStatus | frameSetSpc => cases hv

/-- LDCMD that reports an error clears KVALID (41_framer.md R122). -/
theorem exec_ldcmd_error_kvalid {a : Byte} {imm : Half} {s t : State} (hi : s.blk.phase = .idle)
    (h : exec (.ldcmd a imm) s = .next t) (herr : t.blk.err ≠ .none) : t.blk.kvalid = false := by
  cases hk : Kind.ofByte? a with
  | none =>
    rw [exec_ldcmd_unknown imm hi hk] at h
    cases h
    rfl
  | some k =>
    cases hp : paramOk s.params k imm with
    | true =>
      rw [exec_ldcmd hi hk hp] at h
      cases h
      exact absurd rfl herr
    | false =>
      rw [exec_ldcmd_outOfRange hi imm hk hp] at h
      cases h
      rfl

/-- Settles O53: the answer to the prepared block is one of `Block.Issued`; KVALID by whether OP is LDCMD's. -/
theorem errorLeavesCachedState : Obligations.ErrorLeavesCachedState := by
  intro v s t hi h herr
  have hkvalid : t.blk.kvalid = s.blk.kvalid ∨ (fieldOp v = 0x11#8 ∧ t.blk.kvalid = false) := by
    by_cases hop : fieldOp v = 0x11#8
    · exact .inr ⟨hop, exec_ldcmd_error_kvalid hi (by rwa [decodeCmd, hop] at h) herr⟩
    · exact .inl (exec_error_kvalid (encode_decodeCmd v) hi h herr hop)
  obtain ⟨c, hc, rfl⟩ := exec_issued (encode_decodeCmd v) hi h
  obtain ⟨⟨hdone, hok, hconc, hwarm, hrx, htx, hlen, hkind, hresult⟩, hacc⟩ := hc.failedFrom rfl herr
  exact ⟨hdone, hok, hconc, hwarm, hrx, htx, hlen, hkind, hresult, hkvalid, hacc⟩

end Sys2Proof.Machine

/-! SUPPORT. DROP is sticky (60_exceptions.md R204): no operation clears it, and so O54. -/

namespace Sys2Proof.Machine

theorem Block.decodeKind_drop (P : Params) (b : Block) (k : Kind) : (b.decodeKind P k).drop = b.drop := by
  obtain ⟨_, _, _, _, _, _, heq⟩ := b.decodeKind_completes P k
  rw [heq]
  rfl

theorem Block.failKind_drop (b : Block) (e : ErrCode) : (b.failKind e).drop = b.drop := by
  rw [Block.failKind_eq]
  rfl

/-- No command word of an idle block writes DROP. -/
theorem Block.Issued.drop_eq {P : Params} {b c : Block} (h : b.Issued P c) : c.drop = b.drop := by
  cases h with
  | parses k hv hk =>
    obtain ⟨_, _, _, _, _, _, heq⟩ := b.clearCkok.parseFrame_completes P k
    rw [heq]
    rfl
  | _ => rfl

/-- The end of a receive phase does not write DROP. -/
theorem Block.Received.drop_eq {P : Params} {b c : Block} {L : FrameLen} (h : b.Received P L c) : c.drop = b.drop := by
  cases h with
  | decoded k hv hc hk => exact Block.decodeKind_drop P (b.accepted L) k
  | exchangeFails hc => exact Block.failKind_drop (b.rejected L) .checksum
  | copied | recvFails => rfl

theorem Block.afterTx_drop {b c : Block} (h : b.afterTx = .ok c) : c.drop = b.drop := by
  rw [Block.afterTx_frame h]

theorem Block.afterRx_drop {P : Params} {b c : Block} {x : Byte} (h : b.afterRx P x = .ok c) : c.drop = b.drop := by
  obtain ⟨-, ⟨-, rfl⟩ | ⟨-, L, -, hrec⟩⟩ := Block.afterRx_cases h
  · rfl
  · exact hrec.drop_eq

theorem timeout_drop (s : State) : (timeout s).blk.drop = s.blk.drop := by
  rcases timeout_cases s with ht | ht | ht <;> rw [ht]
  · exact Block.failKind_drop s.blk .timeout
  · rfl

/-- A write of any register but STATUS leaves DROP set. -/
theorem writeReg_drop {b : Block} {r : Reg} (v : Word) (hr : r ≠ .status) (hd : b.drop = true) :
    (writeReg b v r).drop = true := by
  cases r with
  | status => exact absurd rfl hr
  | acc | txbuf | rxbuf =>
    simp only [writeReg, writeIdle]
    split
    · rfl
    · exact hd
  | cmd | result | conc | frame | kindreg | unmapped => exact hd

/-- A write of STATUS with bit 16 clear leaves DROP (10_state.md R41). -/
theorem writeReg_status_drop {b : Block} {v : Word} (hv : v.getLsbD 16 = false) : (writeReg b v .status).drop = b.drop := by
  rw [writeReg, hv]
  rfl

/-- A command word does not clear DROP, and one that is dropped sets it (10_state.md R40). -/
theorem exec_cmd_drop {v : Word} {s t : State} (h : exec (decodeCmd v) s = .next t) (hd : s.blk.drop = true) :
    t.blk.drop = true := by
  rcases exec_cmd_cases h with ⟨-, rfl⟩ | ⟨-, c, hc, rfl⟩
  · rfl
  · exact hc.drop_eq.trans hd

/-- A step leaves DROP set, or it is a RESET, or it writes STATUS with bit 16 set. -/
theorem step_drop_cases {s t : State} (h : step s = .next t) (hd : s.blk.drop = true) :
    t.blk.drop = true ∨ s.env.inputs.head? = some .reset ∨
    ∃ addr size v, s.env.inputs.head? = some (.hostWr addr size v) ∧ busReg s.params addr size = .ok .status ∧
      v.getLsbD 16 = true := by
  rcases step_next_cases h with ⟨-, rfl⟩ | ⟨-, -, v, -, -, hx⟩ | ⟨addr, size, v, r, hin, -, hreg, rfl⟩ | ⟨-, -, r, -, rfl⟩ |
    ⟨-, hx⟩ | ⟨x, -, rfl⟩ | ⟨-, hx⟩ | ⟨-, rfl⟩ | ⟨hreset, -⟩
  · exact .inl hd
  · exact .inl (exec_cmd_drop hx hd)
  · by_cases hr : r = .status
    · subst hr
      cases hv : v.getLsbD 16 with
      | true => exact .inr (.inr ⟨addr, size, v, hin, hreg, hv⟩)
      | false => exact .inl ((writeReg_status_drop hv).trans hd)
    · exact .inl (writeReg_drop v hr hd)
  · exact .inl hd
  · rcases txAcc_cases hx with ⟨-, rfl⟩ | ⟨-, x, b, -, hb, rfl⟩
    · exact .inl hd
    · exact .inl ((Block.afterTx_drop hb).trans hd)
  · exact .inl hd
  · rcases rxByte_cases hx with ⟨-, rfl⟩ | ⟨-, x, rest, b, -, hb, rfl⟩
    · exact .inl hd
    · exact .inl ((Block.afterRx_drop hb).trans hd)
  · exact .inl ((timeout_drop s.pop).trans hd)
  · exact .inr (.inl hreset)

/-- Settles O54: of the cases of `step_drop_cases` DROP at 0 leaves RESET and the write whose register is STATUS. -/
theorem dropIsSticky : Obligations.DropIsSticky := by
  intro s t h hd hclear
  rcases step_drop_cases h hd with hset | hreset | ⟨addr, size, v, hin, hreg, hv⟩
  · exact absurd hset (by simp [hclear])
  · exact .inl hreset
  · obtain ⟨off, rfl, -, -, rfl, hoff⟩ := busReg_ok hreg
    obtain rfl := offset_of_regAt_status hoff.symm
    exact .inr ⟨v, hin, hv⟩

end Sys2Proof.Machine

/-! SUPPORT. The hang of a send phase whose bytes no one accepts (70_reset_and_hazards.md R243), and so O19. -/

namespace Sys2Proof.Machine

/-- A step uses up one input (10_state.md R23). -/
theorem step_inputs {s t : State} (h : step s = .next t) : t.env.inputs = s.env.inputs.tail := by
  rcases step_next_cases h with ⟨hin, rfl⟩ | ⟨-, -, v, -, -, hx⟩ | ⟨-, -, v, r, -, -, -, rfl⟩ | ⟨-, -, r, -, rfl⟩ |
    ⟨-, hx⟩ | ⟨x, -, rfl⟩ | ⟨-, hx⟩ | ⟨-, rfl⟩ | ⟨-, rfl⟩
  · simp [hin]
  · rw [(exec_cmd_outside hx).2]
    rfl
  · rfl
  · rfl
  · rcases txAcc_cases hx with ⟨-, rfl⟩ | ⟨-, x, b, -, -, rfl⟩ <;> rfl
  · rfl
  · rcases rxByte_cases hx with ⟨-, rfl⟩ | ⟨-, x, rest, b, -, -, rfl⟩ <;> rfl
  · rcases timeout_cases s.pop with ht | ht | ht <;> rw [ht] <;> rfl
  · rfl

/-- A host write of a busy block changes no register but DROP (10_state.md R40). -/
theorem writeReg_busy {b : Block} (v : Word) (r : Reg) (h : b.phase ≠ .idle) :
    writeReg b v r = { b with drop := (writeReg b v r).drop } := by
  cases r with
  | acc | txbuf | rxbuf => simp only [writeReg, writeIdle_busy _ h]
  | status => rw [writeReg_status]
  | cmd | result | conc | frame | kindreg | unmapped => rfl

/-- With neither TXACC nor RESET to come, a step of a send phase changes no register but DROP (41_framer.md R125). -/
theorem step_stalled_blk {s t : State} (hp : s.blk.phase = .sending) (hstall : ∀ x ∈ s.env.inputs, x.isStall)
    (h : step s = .next t) : t.blk = { s.blk with drop := t.blk.drop } := by
  have hbusy : s.blk.phase ≠ .idle := by simp [hp]
  have hrx : s.blk.phase ≠ .receiving := by simp [hp]
  rcases step_next_cases h with ⟨-, rfl⟩ | ⟨-, -, v, -, -, hx⟩ | ⟨-, -, v, r, -, -, -, rfl⟩ | ⟨-, -, r, -, rfl⟩ |
    ⟨hin, -⟩ | ⟨x, -, rfl⟩ | ⟨-, hx⟩ | ⟨-, rfl⟩ | ⟨hin, -⟩
  · rfl
  · rw [exec_cmd_busy (s := s.pop) v hbusy] at hx
    cases hx
    rfl
  · exact writeReg_busy v r hbusy
  · rfl
  · exact absurd rfl (hstall _ (List.mem_of_head? hin)).1
  · rfl
  · rw [rxByte_not_ready (s := s.pop) (by simp [Block.rxReady, hp])] at hx
    cases hx
    rfl
  · rw [timeout, if_neg (by exact hrx)]
    rfl
  · exact absurd rfl (hstall _ (List.mem_of_head? hin)).2

/-- With no TXACC to come, a step sends no byte (00_scope.md R15). -/
theorem step_stalled_txStream {s t : State} (hstall : ∀ x ∈ s.env.inputs, x.isStall) (h : step s = .next t) :
    t.env.txStream = s.env.txStream := by
  rcases step_streams h with ⟨-, htx⟩ | ⟨-, -, -, htx⟩ | ⟨hin, -, -, -⟩ | ⟨-, -, -, -, htx⟩
  · exact htx
  · exact htx
  · exact absurd rfl (hstall _ (List.mem_of_head? hin)).1
  · exact htx

/-- What every step keeps, a run keeps. -/
theorem run_keeps {R : State → Prop} (hstep : ∀ {u v : State}, R u → step u = .next v → R v) (k : Nat) :
    ∀ {s t : State}, R s → run k s = .next t → R t := by
  induction k with
  | zero =>
    intro s t hs h
    cases h
    exact hs
  | succ k ih =>
    intro s t hs h
    rw [run] at h
    cases hu : step s with
    | next u => rw [hu] at h; exact ih (hstep hs hu) h
    | fault f => rw [hu] at h; cases h
    | refused r => rw [hu] at h; cases h

/-- `t` is still in the send phase of `s`: at most DROP has changed, no byte was sent, and nothing to come ends it. -/
structure State.HangsIn (s t : State) : Prop where
  blk : t.blk = { s.blk with drop := t.blk.drop }
  txStream : t.env.txStream = s.env.txStream
  stalls : ∀ x ∈ t.env.inputs, x.isStall

theorem State.HangsIn.of_step {s u v : State} (hp : s.blk.phase = .sending) (hu : s.HangsIn u) (h : step u = .next v) :
    s.HangsIn v where
  blk := by
    have hphase : u.blk.phase = .sending := by rw [hu.blk]; exact hp
    rw [step_stalled_blk hphase hu.stalls h, hu.blk]
  txStream := (step_stalled_txStream hu.stalls h).trans hu.txStream
  stalls x hx := hu.stalls x (List.mem_of_mem_tail (step_inputs h ▸ hx))

/-- Settles O19: every step keeps the hang, so every run does. -/
theorem transmitHangKeepsBusy : Obligations.TransmitHangKeepsBusy := by
  intro k s t hp hstall h
  have hang := run_keeps (R := s.HangsIn) (fun hu => hu.of_step hp) k ⟨rfl, rfl, hstall⟩ h
  exact ⟨hang.blk, hang.txStream⟩

end Sys2Proof.Machine

/-! SUPPORT. The SPC ready flag inside the checksum (70_reset_and_hazards.md R245), and so O38. -/

namespace Sys2Proof.Machine

theorem Buf.total_succ (B : Buf) {n : Nat} (h : n < 16) : B.total (n + 1) = B.total n + B[n].toNat := by
  simp [Buf.total, Buf.take_succ B h]

/-- The sum of a buffer's bytes does not wrap at 16 bits. -/
theorem Buf.total_lt (B : Buf) (n : Nat) : B.total n < 65536 :=
  byte_total_lt (by simp only [List.length_take, Vector.length_toList]; omega)

/-- The three bytes of the standard header sum to 0x12F, so the checksum behind them has a high byte (R245). -/
theorem Buf.goodFrame_high_ne_zero {B : Buf} (h0 : B[0] = 0x42#8) (h1 : B[1] = 0x4D#8) (h2 : B[2] = 0xA0#8)
    (hg : B.goodFrame (rspLen .spcStatus)) : B[8] ≠ 0x00#8 := by
  intro h8
  have hsum : B[8].toNat * 256 + B[9].toNat = B.total 8 % 65536 := hg
  have hhead : 0x12F ≤ B.total 8 := by
    simp only [Buf.total_succ, Nat.reduceLT, h0, h1, h2, BitVec.toNat_ofNat]
    omega
  have hlow := B[9].isLt
  rw [h8, Nat.mod_eq_of_lt (B.total_lt 8), BitVec.toNat_ofNat] at hsum
  omega

/-- Settles O38: a response that verifies has a nonzero high checksum byte, one that does not fails. -/
theorem standardHeaderNeverReady : Obligations.StandardHeaderNeverReady := by
  intro a imm s t hoff hi hv hkind h0 h1 h2 h
  by_cases hg : s.blk.rxbuf.goodFrame (rspLen .spcStatus)
  · have hready : s.blk.rxbuf[s.params.spcReadyOff.val]'(by omega) ≠ 0x00#8 := by
      simp only [hoff]
      exact Buf.goodFrame_high_ne_zero h0 h1 h2 hg
    rw [(parseDecodesSpcStatus a imm s hi hv hkind hg).2 hready] at h
    cases h
    exact ⟨rfl, rfl⟩
  · rw [exec_parse_bad hi hv (Kind.ofByte?_of_code (k := .spcStatus) hkind) a imm hg] at h
    cases h
    exact ⟨rfl, rfl⟩

end Sys2Proof.Machine

/-! SUPPORT. When RXBUF changes (70_reset_and_hazards.md R242), and so O51; what RESET leaves (R230, R233), and so O45. -/

namespace Sys2Proof.Machine

/-- No command word of an idle block writes RXBUF. -/
theorem Block.Issued.rxbuf_eq {P : Params} {b c : Block} (h : b.Issued P c) : c.rxbuf = b.rxbuf := by
  cases h with
  | parses k hv hk =>
    obtain ⟨_, _, _, _, _, _, heq⟩ := b.clearCkok.parseFrame_completes P k
    rw [heq]
    rfl
  | _ => rfl

/-- The decode ends the operation (43_exchange_and_commands.md R177). -/
theorem Block.decodeKind_phase (P : Params) (b : Block) (k : Kind) : (b.decodeKind P k).phase = .idle := by
  obtain ⟨_, _, _, _, _, _, heq⟩ := b.decodeKind_completes P k
  rw [heq]
  rfl

theorem Block.failKind_rxbuf (b : Block) (e : ErrCode) : (b.failKind e).rxbuf = b.rxbuf := by
  rw [Block.failKind_eq]
  rfl

/-- The end of a receive phase leaves RXBUF, or the response has passed its checksum (42_parser.md R142). -/
theorem Block.Received.rxbuf_cases {P : Params} {b c : Block} {L : FrameLen} (h : b.Received P L c) :
    c.rxbuf = b.rxbuf ∨ (c.phase = .idle ∧ c.ckok = true) := by
  cases h with
  | decoded => exact .inr ⟨Block.decodeKind_phase .., Block.decodeKind_ckok ..⟩
  | copied => exact .inr ⟨rfl, rfl⟩
  | exchangeFails => exact .inl (Block.failKind_rxbuf (b.rejected L) .checksum)
  | recvFails => exact .inl rfl

/-- A host write changes RXBUF only through its window, while the block is idle (20_memory.md R64). -/
theorem writeReg_rxbuf_cases (b : Block) (v : Word) (r : Reg) :
    (writeReg b v r).rxbuf = b.rxbuf ∨ (b.phase = .idle ∧ ∃ i, r = .rxbuf i) := by
  by_cases hi : b.phase = .idle
  · cases r with
    | rxbuf i => exact .inr ⟨hi, i, rfl⟩
    | acc => exact .inl (by rw [writeReg_acc_idle v hi])
    | txbuf i => exact .inl (by rw [writeReg_txbuf_idle v i hi])
    | status => exact .inl (by rw [writeReg_status])
    | cmd | result | conc | frame | kindreg | unmapped => exact .inl rfl
  · exact .inl (by rw [writeReg_busy v r hi])

theorem Block.afterTx_rxbuf {b c : Block} (h : b.afterTx = .ok c) : c.rxbuf = b.rxbuf := by
  rw [Block.afterTx_frame h]

theorem timeout_rxbuf (s : State) : (timeout s).blk.rxbuf = s.blk.rxbuf := by
  rcases timeout_cases s with ht | ht | ht <;> rw [ht]
  · exact Block.failKind_rxbuf s.blk .timeout
  · rfl

/-- Settles O51: by the events of a step; every other one leaves RXBUF. -/
theorem rxbufOnlyFromHostOrVerifiedResponse : Obligations.RxbufOnlyFromHostOrVerifiedResponse := by
  intro s t h hne
  rcases step_next_cases h with ⟨-, rfl⟩ | ⟨-, -, v, -, -, hx⟩ | ⟨_, _, v, r, hin, -, hreg, rfl⟩ | ⟨-, -, r, -, rfl⟩ |
    ⟨-, hx⟩ | ⟨x, -, rfl⟩ | ⟨hin, hx⟩ | ⟨-, rfl⟩ | ⟨hreset, -⟩
  · exact absurd rfl hne
  · rcases exec_cmd_cases hx with ⟨-, rfl⟩ | ⟨-, c, hc, rfl⟩
    · exact absurd rfl hne
    · exact absurd hc.rxbuf_eq hne
  · obtain ⟨hi, i, rfl⟩ := (writeReg_rxbuf_cases s.blk v r).resolve_left hne
    obtain ⟨off, rfl, -, -, rfl, hoff⟩ := busReg_ok hreg
    obtain ⟨hlo, hhi⟩ := offset_of_regAt_rxbuf hoff.symm
    exact .inr (.inl ⟨off, v, hlo, hhi, hin, hi⟩)
  · exact absurd rfl hne
  · rcases txAcc_cases hx with ⟨-, rfl⟩ | ⟨-, x, b, -, hb, rfl⟩
    · exact absurd rfl hne
    · exact absurd (Block.afterTx_rxbuf hb) hne
  · exact absurd rfl hne
  · rcases rxByte_cases hx with ⟨-, rfl⟩ | ⟨hp, x, rest, b, -, hb, rfl⟩
    · exact absurd rfl hne
    · obtain ⟨-, ⟨-, rfl⟩ | ⟨-, L, -, hrec⟩⟩ := Block.afterRx_cases hb
      · exact absurd rfl hne
      · obtain ⟨hidle, hck⟩ := hrec.rxbuf_cases.resolve_left hne
        exact .inr (.inr ⟨hin, hp, hidle, hck⟩)
  · exact absurd (timeout_rxbuf s.pop) hne
  · exact .inl hreset

/-! ## RESET -/

/-- Settles O45: the next state is `resetBlock`'s. -/
theorem resetRestoresEveryRegister : Obligations.ResetRestoresEveryRegister := by
  intro s rest hin
  exact ⟨resetBlock s.pop, step_reset hin, rfl, rfl, rfl, rfl, congrArg List.tail hin, rfl⟩

end Sys2Proof.Machine
